-- ==== Sys2Proof/Word.lean ====
section
/-! DEFINITION. The two word sizes of the CPU12: the 8-bit byte (20_memory.md R51) and the 16-bit word of the index
registers, SP, PC and addresses (00_scope.md R5, R50). -/

namespace Sys2Proof

/-- An 8-bit value: A, B, CCR, PPAGE, a memory byte (00_scope.md R5, 20_memory.md R51). -/
abbrev Byte := BitVec 8

/-- A 16-bit value: D, X, Y, SP, PC and every address (00_scope.md R5, 20_memory.md R50). -/
abbrev Word := BitVec 16

end Sys2Proof
end

