-- ==== Sys2Proof/Config.lean ====
section
/-! DEFINITION. What the spec leaves to the platform (00_scope.md R6), each parameter at the spec's own default, and the
free values: constants without a body, about which nothing can be proved (log 8). -/

namespace Sys2Proof

/-! ### Parameters of 00_scope.md R6 -/

/-- `VEC_RESET` (R6, D8). PRESUMED, unsafe (log 7). -/
def Config.vecReset : Word := 0xFFFE#16
/-- The clock monitor's reset vector (60_exceptions.md R507). PRESUMED, unsafe (log 7). -/
def Config.vecClockMonitor : Word := 0xFFFC#16
/-- The COP watchdog's reset vector (R507). PRESUMED, unsafe (log 7). -/
def Config.vecCop : Word := 0xFFFA#16
/-- `VEC_TRAP` (R6, D8). PRESUMED, unsafe (log 7). -/
def Config.vecTrap : Word := 0xFFF8#16
/-- `VEC_SWI` (R6, D8). PRESUMED, unsafe (log 7). -/
def Config.vecSwi : Word := 0xFFF6#16
/-- `VEC_XIRQ` (R6, D8). PRESUMED, unsafe (log 7). -/
def Config.vecXirq : Word := 0xFFF4#16
/-- `VEC_IRQ` (R6, D8). PRESUMED, unsafe (log 7). -/
def Config.vecIrq : Word := 0xFFF2#16

/-- `QUEUE_BYTES`: how far past the current instruction the CPU may already have fetched (R6, D14). -/
def Config.queueBytes : Nat := 8

/-- `PPAGE_RESET`: PPAGE after reset, to which the spec gives no value (R6, D9). DESIGN CHOICE, unsafe (log 3). -/
def Config.ppageReset : Byte := 0

/-- `IoRegion(addr)`: the addresses a device answers; the default is none (R6, D6, 20_memory.md R62). DESIGN CHOICE of the
spec, unsafe on a part with registers (log 5). -/
def Config.ioRegion (_addr : Word) : Bool := false

/-- `Mapped(addr)`: the addresses that hold memory; the default is all 64K (R6, D6, 20_memory.md R65). DESIGN CHOICE of the
spec, unsafe on a part with holes (log 5). -/
def Config.mapped (_addr : Word) : Bool := true

/-- `Writable(addr)`: the addresses a store changes; the default is all 64K (R6, D6, R65). DESIGN CHOICE of the spec, unsafe on
a part with ROM (log 5). -/
def Config.writable (_addr : Word) : Bool := true

/-- `PageMap(ppage, addr)`: the byte of storage an address reaches under a page; the default is the identity (R6, D7,
20_memory.md R64). DESIGN CHOICE of the spec, unsafe on a paged part (log 6). -/
def Config.pageMap (_ppage : Byte) (addr : Word) : Nat := addr.toNat

/-- The parameter `EtblRound`'s values (43_minmax_table.md R224, D24). -/
inductive Rounding where
  | floor
  | trunc
  deriving DecidableEq, Repr

/-- `EtblRound`, the spec's default (D24). DESIGN CHOICE of the spec, unsafe (log 27). -/
def Config.etblRound : Rounding := .floor

/-- `MemSpecial`, the spec's default: a slope byte of `$00` is a vertical side (47_fuzzy.md R320, D11). Unsafe (log 26). -/
def Config.memSpecial : Bool := true

/-- The parameter `DivZeroResult`'s values (42_arithmetic.md R207 (f)). -/
inductive DivZeroResult where
  | stated
  | draw
  deriving DecidableEq, Repr

/-- `DivZeroResult`, the spec's default (D12). Unsafe (log 10). -/
def Config.divZeroResult : DivZeroResult := .stated

/-! ### Free values

Each is applied to the counter `State.draws`, which the step that uses it advances, so that every use is a fresh
value. Having no body they can be neither computed nor proved to be anything in particular (log 8). -/

/-- A free byte: a flag the spec calls not defined (00_scope.md R9, U1), an unstated half of an EXG (R260). Safe. -/
opaque Config.freeByte : Nat → Byte
/-- A free word: an indeterminate division result (U2), the unknown PC base (R100), a temporary (R38). Safe. -/
opaque Config.freeWord : Nat → Word
/-- A free choice between two behaviours: delivery of an interrupt (60_exceptions.md R509), the order of two writes
(R547), whether a WAV is split (R325). Safe. -/
opaque Config.freeBool : Nat → Bool
/-- A free index: which of the bytes the queue may hold a fetch sees (20_memory.md R69, log 19). Safe. -/
opaque Config.freeIndex : Nat → Nat

/-! ### Values one implementation fixes and the spec does not give -/

/-- The debug vector BGND goes through when background mode is not enabled (48_lost_rows.md R419); no address is
given. Safe (log 29). -/
opaque Config.vecBgnd : Word
/-- How the two partial sums of an interrupted WAV lie in the six stacked bytes. The source gives no layout
(47_fuzzy.md R324, N18); that wavr recovers the sums (R324) makes it a bijection. Safe (log 24). -/
opaque Config.wavLayout : Equiv.Perm (BitVec 48)

end Sys2Proof
end

