-- ==== Sys2Proof/Machine/Bytes.lean ====
section
/-! DEFINITION. The two bytes of a word, and the word of two bytes: the high-order byte comes first, in data and in
instruction fields (20_memory.md R53, R54). -/

namespace Sys2Proof

/-- The high-order byte. -/
def hiByte (w : Word) : Byte := w.extractLsb' 8 8

/-- The low-order byte. -/
def loByte (w : Word) : Byte := w.extractLsb' 0 8

/-- The word whose high-order byte is `h`: the spec's `h : l` (00_scope.md R7). -/
def joinBytes (h l : Byte) : Word := h ++ l

end Sys2Proof
end

