-- ==== Sys2Proof/Syntax.lean ====
section
/-! DEFINITION. The instructions as syntax: operand shapes (30_encoding.md) and one constructor per mnemonic of
spec/opcode_table.json, every address mode of the mnemonic inside its operand. Alias mnemonics (R115, R402, R403, R411,
R415, R436, R431, R462, R463, R471, R472) have constructors of their own. -/

namespace Sys2Proof

/-! ### Operand shapes -/

/-- Base register of indexed addressing: codes 00 X, 01 Y, 10 SP, 11 PC (30_encoding.md R92). -/
inductive Base where
  | x | y | sp | pc
  deriving DecidableEq, Repr

/-- Register of the auto pre/post increment and decrement forms: X, Y or SP, never PC (R94). -/
inductive AutoReg where
  | x | y | sp
  deriving DecidableEq, Repr

/-- Accumulator offset: `aa` = 00 A, 01 B, 10 D (R95). -/
inductive AccOff where
  | a | b | d
  deriving DecidableEq, Repr

/-- An indexed operand: postbyte `xb` and its extension bytes (R92). -/
inductive Idx where
  /-- 5-bit constant offset (R93). -/
  | off5 (r : Base) (n : BitVec 5)
  /-- Auto pre (`post = false`) or post increment/decrement by the code `nnnn` (R94). -/
  | auto (r : AutoReg) (post : Bool) (n : BitVec 4)
  /-- Accumulator offset (R95). -/
  | acc (r : Base) (o : AccOff)
  /-- 9-bit constant offset, IDX1 (R96). -/
  | off9 (r : Base) (n : BitVec 9)
  /-- 16-bit constant offset, IDX2 (R97). -/
  | off16 (r : Base) (n : Word)
  /-- Accumulator D offset, indirect, [D,IDX] (R98). -/
  | indD (r : Base)
  /-- 16-bit offset, indirect, [IDX2] (R99). -/
  | ind16 (r : Base) (n : Word)
  deriving DecidableEq, Repr

/-- A memory operand: DIR (R87), EXT (R88) or indexed (R92). -/
inductive Addr where
  | dir (dd : Byte)
  | ext (hhll : Word)
  | idx (i : Idx)
  deriving DecidableEq, Repr

/-- An 8-bit source operand: an immediate (R85) or a memory byte. -/
inductive Src8 where
  | imm (ii : Byte)
  | mem (m : Addr)
  deriving DecidableEq, Repr

/-- A 16-bit source operand: an immediate (R86) or a memory word. -/
inductive Src16 where
  | imm (jjkk : Word)
  | mem (m : Addr)
  deriving DecidableEq, Repr

/-- Where a CALL goes: the direct forms with their page byte (46_call_return_system.md R300), or the indirect forms,
whose page comes from memory (R301). -/
inductive CallTo where
  | ext (hhll : Word) (pg : Byte)
  | idx (i : Idx) (pg : Byte)
  | ind (i : Idx)
  deriving DecidableEq, Repr

/-- Counter of a loop primitive: codes 000 A, 001 B, 100 D, 101 X, 110 Y, 111 SP (R103). -/
inductive Cntr where
  | a | b | d | x | y | sp
  deriving DecidableEq, Repr

/-- 8-bit registers of EXG and TFR: codes 000 A, 001 B, 010 CCR (R102). -/
inductive R8 where
  | a | b | ccr
  deriving DecidableEq, Repr

/-- 16-bit registers of EXG and TFR: codes 100 D, 101 X, 110 Y, 111 SP (R102). Code 011, the temporaries, is left out (10_state.md
R38). -/
inductive R16 where
  | d | x | y | sp
  deriving DecidableEq, Repr

/-- A register named by the exchange/transfer postbyte `eb` (R102). -/
inductive XReg where
  | r8 (r : R8)
  | r16 (r : R16)
  deriving DecidableEq, Repr

/-! ### Instructions -/

/-- One constructor per mnemonic of spec/opcode_table.json. -/
inductive Instr where
  /-- BRA rel8 (40_branch.md R139). -/
  | bra (rr : Byte)
  /-- BRN rel8 (40_branch.md R141). -/
  | brn (rr : Byte)
  /-- BLS rel8 (40_branch.md R134). -/
  | bls (rr : Byte)
  /-- BHS rel8 (40_branch.md R131). -/
  | bhs (rr : Byte)
  /-- BLO rel8 (40_branch.md R133). -/
  | blo (rr : Byte)
  /-- BNE rel8 (40_branch.md R137). -/
  | bne (rr : Byte)
  /-- BVC rel8 (40_branch.md R144). -/
  | bvc (rr : Byte)
  /-- BVS rel8 (40_branch.md R145). -/
  | bvs (rr : Byte)
  /-- BPL rel8 (40_branch.md R138). -/
  | bpl (rr : Byte)
  /-- BMI rel8 (40_branch.md R136). -/
  | bmi (rr : Byte)
  /-- BLT rel8 (40_branch.md R135). -/
  | blt (rr : Byte)
  /-- BLE rel8 (40_branch.md R132). -/
  | ble (rr : Byte)
  /-- BCC rel8, another name of BHS (R131, R415). -/
  | bcc (rr : Byte)
  /-- BCS rel8, another name of BLO (R133, R415). -/
  | bcs (rr : Byte)
  /-- BSR rel8 (40_branch.md R143). -/
  | bsr (rr : Byte)
  /-- BRCLR opr, msk, rel8 (40_branch.md R140). -/
  | brclr (m : Addr) (mm rr : Byte)
  /-- BRSET opr, msk, rel8 (40_branch.md R142). -/
  | brset (m : Addr) (mm rr : Byte)
  /-- IBEQ cntr, rel9 (40_branch.md R147). -/
  | ibeq (c : Cntr) (off : BitVec 9)
  /-- IBNE cntr, rel9 (40_branch.md R148). -/
  | ibne (c : Cntr) (off : BitVec 9)
  /-- ANDCC #opr8i (41_logic_compare_clear.md R165). -/
  | andcc (ii : Byte)
  /-- CLC, another name of ANDCC #$FE (R166). -/
  | clc
  /-- CLI, another name of ANDCC #$EF (R167). -/
  | cli
  /-- CLV, another name of ANDCC #$FD (R171). -/
  | clv
  /-- BITA opr (R161). -/
  | bita (o : Src8)
  /-- BITB opr (R162). -/
  | bitb (o : Src8)
  /-- BSET opr, msk (R163). -/
  | bset (m : Addr) (mm : Byte)
  /-- CBA (R164). -/
  | cba
  /-- CLR opr (R168). -/
  | clr (m : Addr)
  /-- CLRA (R169). -/
  | clra
  /-- CLRB (R170). -/
  | clrb
  /-- CMPA opr (R172). -/
  | cmpa (o : Src8)
  /-- CMPB opr (R173). -/
  | cmpb (o : Src8)
  /-- EORA opr (R174). -/
  | eora (o : Src8)
  /-- EORB opr (R175). -/
  | eorb (o : Src8)
  /-- TST opr (R176). -/
  | tst (m : Addr)
  /-- TSTA (R177). -/
  | tsta
  /-- TSTB (R178). -/
  | tstb
  /-- DEC opr (42_arithmetic.md R190). -/
  | dec (m : Addr)
  /-- DECA (R191). -/
  | deca
  /-- DECB (R192). -/
  | decb
  /-- DES, another name of LEAS -1,SP (R193). -/
  | des
  /-- DEX (R194). -/
  | dex
  /-- DEY (R195). -/
  | dey
  /-- EDIV (R196). -/
  | ediv
  /-- EDIVS (R197). -/
  | edivs
  /-- EMACS sum (R198). -/
  | emacs (hhll : Word)
  /-- EMUL (R199). -/
  | emul
  /-- EMULS (R200). -/
  | emuls
  /-- FDIV (R201). -/
  | fdiv
  /-- IDIV (R202). -/
  | idiv
  /-- IDIVS (R203). -/
  | idivs
  /-- SBA (R204). -/
  | sba
  /-- SUBA opr (R205). -/
  | suba (o : Src8)
  /-- SUBB opr (R206). -/
  | subb (o : Src8)
  /-- EMAXD opr (43_minmax_table.md R220). -/
  | emaxd (i : Idx)
  /-- EMAXM opr (43_minmax_table.md R221). -/
  | emaxm (i : Idx)
  /-- EMIND opr (43_minmax_table.md R222). -/
  | emind (i : Idx)
  /-- EMINM opr (43_minmax_table.md R223). -/
  | eminm (i : Idx)
  /-- MAXA opr (43_minmax_table.md R225). -/
  | maxa (i : Idx)
  /-- MAXM opr (43_minmax_table.md R226). -/
  | maxm (i : Idx)
  /-- ETBL opr, IDX only (R224). -/
  | etbl (i : Idx)
  /-- LSL opr (44_shift_rotate.md R240). -/
  | lsl (m : Addr)
  /-- LSR opr (44_shift_rotate.md R244). -/
  | lsr (m : Addr)
  /-- ROL opr (44_shift_rotate.md R248). -/
  | rol (m : Addr)
  /-- ROR opr (44_shift_rotate.md R251). -/
  | ror (m : Addr)
  /-- ASL opr, another name of LSL (R240, R411). -/
  | asl (m : Addr)
  /-- LSLA (R241). -/
  | lsla
  /-- LSLB (R242). -/
  | lslb
  /-- LSLD (R243). -/
  | lsld
  /-- LSRA (R245). -/
  | lsra
  /-- LSRB (R246). -/
  | lsrb
  /-- LSRD (R247). -/
  | lsrd
  /-- ROLA (R249). -/
  | rola
  /-- ROLB (R250). -/
  | rolb
  /-- RORA (R252). -/
  | rora
  /-- RORB (R253). -/
  | rorb
  /-- ASLA, another name of LSLA (R241, R411). -/
  | asla
  /-- ASLB, another name of LSLB (R242, R411). -/
  | aslb
  /-- ASLD, another name of LSLD (R243, R411). -/
  | asld
  /-- EXG r1, r2 (45_transfer_stack_store.md R260). -/
  | exg (r1 r2 : XReg)
  /-- TFR r1, r2 (R261, R476). -/
  | tfr (r1 r2 : XReg)
  /-- TSX, another name of TFR SP,X (R280). -/
  | tsx
  /-- TSY, another name of TFR SP,Y (R281). -/
  | tsy
  /-- TXS, another name of TFR X,SP (R282). -/
  | txs
  /-- TYS, another name of TFR Y,SP (R283). -/
  | tys
  /-- XGDX, another name of EXG D,X (R284). -/
  | xgdx
  /-- XGDY, another name of EXG D,Y (R285). -/
  | xgdy
  /-- LEAX opr: IDX, IDX1, IDX2 (R262, R286). -/
  | leax (i : Idx)
  /-- LEAY opr: IDX, IDX1, IDX2 (R263, R286). -/
  | leay (i : Idx)
  /-- LEAS opr: IDX, IDX1, IDX2 (R264, R286). -/
  | leas (i : Idx)
  /-- PSHA (R265). -/
  | psha
  /-- PSHB (R266). -/
  | pshb
  /-- PSHC (R267). -/
  | pshc
  /-- PSHD (R268). -/
  | pshd
  /-- PSHX (R269). -/
  | pshx
  /-- PSHY (R270). -/
  | pshy
  /-- PULA (R271). -/
  | pula
  /-- PULB (R272). -/
  | pulb
  /-- PULC (R273). -/
  | pulc
  /-- PULD (R274). -/
  | puld
  /-- PULX (R275). -/
  | pulx
  /-- PULY (R276). -/
  | puly
  /-- STS opr (R277). -/
  | sts (m : Addr)
  /-- STX opr (R278). -/
  | stx (m : Addr)
  /-- STY opr (R279). -/
  | sty (m : Addr)
  /-- CALL opr, page and CALL [opr] (46_call_return_system.md R300, R301). -/
  | call (t : CallTo)
  /-- RTC (R302). -/
  | rtc
  /-- RTI (R303). -/
  | rti
  /-- RTS (R304). -/
  | rts
  /-- STOP (R305). -/
  | stop
  /-- TRAP trapnum (R306). -/
  | trap (tn : Byte)
  /-- WAI (R307). -/
  | wai
  /-- MEM (47_fuzzy.md R320). -/
  | mem
  /-- REV (47_fuzzy.md R321). -/
  | rev
  /-- REVW (47_fuzzy.md R322). -/
  | revw
  /-- WAV (47_fuzzy.md R323). -/
  | wav
  /-- wavr (R324). -/
  | wavr
  /-- ABA (48_lost_rows.md R401). -/
  | aba
  /-- ABX, another name of LEAX B,X (R402). -/
  | abx
  /-- ABY, another name of LEAY B,Y (R403). -/
  | aby
  /-- INS, another name of LEAS 1,SP (R436). -/
  | ins
  /-- ADCA opr (R404). -/
  | adca (o : Src8)
  /-- ADCB opr (R405). -/
  | adcb (o : Src8)
  /-- ADDA opr (R406). -/
  | adda (o : Src8)
  /-- ADDB opr (R407). -/
  | addb (o : Src8)
  /-- ADDD opr (R408). -/
  | addd (o : Src16)
  /-- ANDA opr (R409). -/
  | anda (o : Src8)
  /-- ANDB opr (R410). -/
  | andb (o : Src8)
  /-- ASR opr (R412). -/
  | asr (m : Addr)
  /-- ASRA (R413). -/
  | asra
  /-- ASRB (R414). -/
  | asrb
  /-- BCLR opr, msk (R416). -/
  | bclr (m : Addr) (mm : Byte)
  /-- BEQ rel8 (R417). -/
  | beq (rr : Byte)
  /-- BGE rel8 (R418). -/
  | bge (rr : Byte)
  /-- BGT rel8 (R420). -/
  | bgt (rr : Byte)
  /-- BHI rel8 (R421). -/
  | bhi (rr : Byte)
  /-- BGND (R419). -/
  | bgnd
  /-- COM opr (R422). -/
  | com (m : Addr)
  /-- COMA (R423). -/
  | coma
  /-- COMB (R424). -/
  | comb
  /-- CPD opr (R425). -/
  | cpd (o : Src16)
  /-- CPS opr (R426). -/
  | cps (o : Src16)
  /-- CPX opr (R427). -/
  | cpx (o : Src16)
  /-- CPY opr (R428). -/
  | cpy (o : Src16)
  /-- DAA (R429). -/
  | daa
  /-- DBEQ cntr, rel9 (R430). -/
  | dbeq (c : Cntr) (off : BitVec 9)
  /-- DBNE cntr, rel9 (R432). -/
  | dbne (c : Cntr) (off : BitVec 9)
  /-- TBEQ cntr, rel9 (R473). -/
  | tbeq (c : Cntr) (off : BitVec 9)
  /-- TBNE cntr, rel9 (R474). -/
  | tbne (c : Cntr) (off : BitVec 9)
  /-- INC opr (R433). -/
  | inc (m : Addr)
  /-- INCA (R434). -/
  | inca
  /-- INCB (R435). -/
  | incb
  /-- INX (R437). -/
  | inx
  /-- INY (R438). -/
  | iny
  /-- JMP opr (R439). -/
  | jmp (m : Addr)
  /-- JSR opr (R440). -/
  | jsr (m : Addr)
  /-- LBRA rel16 (R431). -/
  | lbra (qqrr : Word)
  /-- LBRN rel16 (R431). -/
  | lbrn (qqrr : Word)
  /-- LBHI rel16 (R431). -/
  | lbhi (qqrr : Word)
  /-- LBLS rel16 (R431). -/
  | lbls (qqrr : Word)
  /-- LBCC rel16 (R431). -/
  | lbcc (qqrr : Word)
  /-- LBCS rel16 (R431). -/
  | lbcs (qqrr : Word)
  /-- LBNE rel16 (R431). -/
  | lbne (qqrr : Word)
  /-- LBEQ rel16 (R431). -/
  | lbeq (qqrr : Word)
  /-- LBVC rel16 (R431). -/
  | lbvc (qqrr : Word)
  /-- LBVS rel16 (R431). -/
  | lbvs (qqrr : Word)
  /-- LBPL rel16 (R431). -/
  | lbpl (qqrr : Word)
  /-- LBMI rel16 (R431). -/
  | lbmi (qqrr : Word)
  /-- LBGE rel16 (R431). -/
  | lbge (qqrr : Word)
  /-- LBLT rel16 (R431). -/
  | lblt (qqrr : Word)
  /-- LBGT rel16 (R431). -/
  | lbgt (qqrr : Word)
  /-- LBLE rel16 (R431). -/
  | lble (qqrr : Word)
  /-- LBHS rel16, another name of LBCC (R431). -/
  | lbhs (qqrr : Word)
  /-- LBLO rel16, another name of LBCS (R431). -/
  | lblo (qqrr : Word)
  /-- LDAA opr (R441). -/
  | ldaa (o : Src8)
  /-- LDAB opr (R442). -/
  | ldab (o : Src8)
  /-- LDD opr (R443). -/
  | ldd (o : Src16)
  /-- LDS opr (R444). -/
  | lds (o : Src16)
  /-- LDX opr (R445). -/
  | ldx (o : Src16)
  /-- LDY opr (R446). -/
  | ldy (o : Src16)
  /-- MINA opr (R448). -/
  | mina (i : Idx)
  /-- MINM opr (R449). -/
  | minm (i : Idx)
  /-- MOVB src, dst (R450). -/
  | movb (src : Src8) (dst : Addr)
  /-- MOVW src, dst (R451). -/
  | movw (src : Src16) (dst : Addr)
  /-- MUL (R452). -/
  | mul
  /-- NEG opr (R453). -/
  | neg (m : Addr)
  /-- NEGA (R454). -/
  | nega
  /-- NEGB (R455). -/
  | negb
  /-- NOP (R456). -/
  | nop
  /-- ORAA opr (R457). -/
  | oraa (o : Src8)
  /-- ORAB opr (R458). -/
  | orab (o : Src8)
  /-- ORCC #opr8i (R459). -/
  | orcc (ii : Byte)
  /-- SEC, another name of ORCC #$01 (R462). -/
  | sec
  /-- SEI, another name of ORCC #$10 (R462). -/
  | sei
  /-- SEV, another name of ORCC #$02 (R462). -/
  | sev
  /-- SBCA opr (R460). -/
  | sbca (o : Src8)
  /-- SBCB opr (R461). -/
  | sbcb (o : Src8)
  /-- SEX r1, r2, another name of an 8-to-16 TFR (R463). -/
  | sex (r1 : R8) (r2 : R16)
  /-- STAA opr (R464). -/
  | staa (m : Addr)
  /-- STAB opr (R465). -/
  | stab (m : Addr)
  /-- STD opr (R466). -/
  | std (m : Addr)
  /-- SUBD opr (R467). -/
  | subd (o : Src16)
  /-- SWI (R468). -/
  | swi
  /-- TAB (R469). -/
  | tab
  /-- TBA (R470). -/
  | tba
  /-- TAP, another name of TFR A,CCR (R471). -/
  | tap
  /-- TPA, another name of TFR CCR,A (R472). -/
  | tpa
  /-- TBL opr, IDX only (R475). -/
  | tbl (i : Idx)
  deriving DecidableEq, Repr

end Sys2Proof
end

