-- ==== Sys2Proof/WellFormed.lean ====
section
/-! DEFINITION. Which instructions the encoding can express: the address modes each row lists (30_encoding.md R101 and
the Encoding clause of each rule). Everything the decoder answers is well formed. -/

namespace Sys2Proof

/-- The mode name IDX: no extension byte and no indirection (R113). -/
def Idx.isShort : Idx → Bool
  | .off5 _ _ | .auto _ _ _ | .acc _ _ => true
  | .off9 _ _ | .off16 _ _ | .indD _ | .ind16 _ _ => false

/-- The modes [D,IDX] and [IDX2] (R98, R99). -/
def Idx.isIndirect : Idx → Bool
  | .indD _ | .ind16 _ _ => true
  | .off5 _ _ | .auto _ _ _ | .acc _ _ | .off9 _ _ | .off16 _ _ => false

/-- EXT and the five indexed modes: no DIR row (R168, R176, R190, R256, R412, R439). -/
def Addr.noDir : Addr → Bool
  | .dir _ => false
  | .ext _ | .idx _ => true

/-- DIR, EXT, IDX, IDX1, IDX2: no indirect row (R140, R142, R163, R416). -/
def Addr.noIndirect : Addr → Bool
  | .dir _ | .ext _ => true
  | .idx i => !i.isIndirect

/-- EXT and IDX only: a memory operand of MOVB and MOVW (R450, R451). -/
def Addr.isMove : Addr → Bool
  | .dir _ => false
  | .ext _ => true
  | .idx i => i.isShort

/-- A source of MOVB (R450). -/
def Src8.isMove : Src8 → Bool
  | .imm _ => true
  | .mem m => m.isMove

/-- A source of MOVW (R451). -/
def Src16.isMove : Src16 → Bool
  | .imm _ => true
  | .mem m => m.isMove

/-- The trap numbers: `$30` to `$39` and `$40` to `$FF` (R106). -/
def isTrapNumber (tn : Byte) : Bool :=
  (0x30#8 ≤ tn && tn ≤ 0x39#8) || 0x40#8 ≤ tn

/-- A CALL operand: the direct forms take IDX, IDX1, IDX2 (R300), the others [D,IDX], [IDX2] (R301). -/
def CallTo.wf : CallTo → Bool
  | .ext _ _ => true
  | .idx i _ => !i.isIndirect
  | .ind i => i.isIndirect

/-- The instruction has an encoding. -/
def Instr.wf : Instr → Bool
  | .clr m | .tst m | .dec m | .lsl m | .asl m | .lsr m | .rol m | .ror m => m.noDir
  | .asr m | .com m | .inc m | .neg m | .jmp m => m.noDir
  | .brclr m _ _ | .brset m _ _ | .bset m _ | .bclr m _ => m.noIndirect
  | .leax i | .leay i | .leas i => !i.isIndirect
  | .etbl i | .tbl i => i.isShort
  | .call t => t.wf
  | .movb src dst => src.isMove && dst.isMove
  | .movw src dst => src.isMove && dst.isMove
  | .trap tn => isTrapNumber tn
  | .bra _ | .brn _ | .bls _ | .bhs _ | .blo _ | .bne _ | .bvc _ | .bvs _ | .bpl _ | .bmi _ | .blt _ | .ble _
  | .bcc _ | .bcs _ | .bsr _ | .ibeq _ _ | .ibne _ _ | .andcc _ | .clc | .cli | .clv | .bita _ | .bitb _ | .cba
  | .clra | .clrb | .cmpa _ | .cmpb _ | .eora _ | .eorb _ | .tsta | .tstb | .deca | .decb | .des | .dex | .dey
  | .ediv | .edivs | .emacs _ | .emul | .emuls | .fdiv | .idiv | .idivs | .sba | .suba _ | .subb _ | .emaxd _
  | .emaxm _ | .emind _ | .eminm _ | .maxa _ | .maxm _ | .lsla | .lslb | .lsld | .lsra | .lsrb | .lsrd | .rola
  | .rolb | .rora | .rorb | .asla | .aslb | .asld | .exg _ _ | .tfr _ _ | .tsx | .tsy | .txs | .tys | .xgdx
  | .xgdy | .psha | .pshb | .pshc | .pshd | .pshx | .pshy | .pula | .pulb | .pulc | .puld | .pulx | .puly
  | .sts _ | .stx _ | .sty _ | .rtc | .rti | .rts | .stop | .wai | .mem | .rev | .revw | .wav | .wavr | .aba
  | .abx | .aby | .ins | .adca _ | .adcb _ | .adda _ | .addb _ | .addd _ | .anda _ | .andb _ | .asra | .asrb
  | .beq _ | .bge _ | .bgt _ | .bhi _ | .bgnd | .coma | .comb | .cpd _ | .cps _ | .cpx _ | .cpy _ | .daa
  | .dbeq _ _ | .dbne _ _ | .tbeq _ _ | .tbne _ _ | .inca | .incb | .inx | .iny | .jsr _ | .lbra _ | .lbrn _
  | .lbhi _ | .lbls _ | .lbcc _ | .lbcs _ | .lbne _ | .lbeq _ | .lbvc _ | .lbvs _ | .lbpl _ | .lbmi _ | .lbge _
  | .lblt _ | .lbgt _ | .lble _ | .lbhs _ | .lblo _ | .ldaa _ | .ldab _ | .ldd _ | .lds _ | .ldx _ | .ldy _
  | .mina _ | .minm _ | .mul | .nega | .negb | .nop | .oraa _ | .orab _ | .orcc _ | .sec | .sei | .sev
  | .sbca _ | .sbcb _ | .staa _ | .stab _ | .std _ | .subd _ | .swi | .tab | .tba | .tap | .tpa | .sex _ _ =>
    true

end Sys2Proof
end

