-- ==== Sys2Proof/Decode.lean ====
section
/-! DEFINITION. From bytes to instructions and back (30_encoding.md). The decoder is total: it answers an instruction and
the bytes left, or a reason. Alias encodings decode to the general instruction (R107 (5)). The encoder is written from the
Encoding clauses of the rules, apart from the decoder. -/

namespace Sys2Proof

/-! ### Postbytes -/

/-- What the postbyte `xb` says before its extension bytes are read (R92). -/
inductive IdxPost where
  | off5 (r : Base) (n : BitVec 5)
  | auto (r : AutoReg) (post : Bool) (n : BitVec 4)
  | acc (r : Base) (o : AccOff)
  | off9 (r : Base) (sign : Bool)
  | off16 (r : Base)
  | indD (r : Base)
  | ind16 (r : Base)
  deriving DecidableEq, Repr

/-- Base register codes (R92). PRESUMED, unsafe (log 12). -/
def baseOf (c : BitVec 2) : Base :=
  match c.toNat with
  | 0 => .x
  | 1 => .y
  | 2 => .sp
  | _ => .pc

/-- Register codes of the auto forms: `11` is none of them (R92, R94). -/
def autoRegOf (c : BitVec 2) : Option AutoReg :=
  match c.toNat with
  | 0 => some .x
  | 1 => some .y
  | 2 => some .sp
  | _ => none

/-- The table of R92: bit 5 clear, then bits 7:6 not `11`, then bit 2, then bits 1:0. PRESUMED, unsafe (log 12). -/
def splitXb (p : Byte) : IdxPost :=
  if p.getLsbD 5 then
    match autoRegOf (p.extractLsb' 6 2) with
    | some r => .auto r (p.getLsbD 4) (p.extractLsb' 0 4)
    | none =>
      let r := baseOf (p.extractLsb' 3 2)
      match p.getLsbD 2, p.getLsbD 1, p.getLsbD 0 with
      | true, false, false => .acc r .a
      | true, false, true => .acc r .b
      | true, true, false => .acc r .d
      | true, true, true => .indD r
      | false, false, s => .off9 r s
      | false, true, false => .off16 r
      | false, true, true => .ind16 r
  else .off5 (baseOf (p.extractLsb' 6 2)) (p.extractLsb' 0 5)

/-- Register codes of `eb` (R102). PRESUMED, unsafe (log 12). Code 011, a temporary, is reserved (10_state.md R38, R112; log 18). -/
def xregOf (c : BitVec 3) : Option XReg :=
  match c.toNat with
  | 0 => some (.r8 .a)
  | 1 => some (.r8 .b)
  | 2 => some (.r8 .ccr)
  | 3 => none
  | 4 => some (.r16 .d)
  | 5 => some (.r16 .x)
  | 6 => some (.r16 .y)
  | _ => some (.r16 .sp)

/-- The postbyte `eb`: bit 7 exchange, bits 6:4 r1, bits 2:0 r2; bit 3 set and code 011 are reserved (R102, R112). -/
def splitEb (p : Byte) : Option (Bool × XReg × XReg) :=
  if p.getLsbD 3 then none
  else match xregOf (p.extractLsb' 4 3), xregOf (p.extractLsb' 0 3) with
    | some r1, some r2 => some (p.getLsbD 7, r1, r2)
    | _, _ => none

/-- The six loop primitives (R103). -/
inductive LoopOp where
  | dbeq | dbne | tbeq | tbne | ibeq | ibne
  deriving DecidableEq, Repr

/-- Bits 7:5 of `lb`; `110` and `111` are not assigned (R103). PRESUMED, unsafe (log 12). -/
def loopOpOf (c : BitVec 3) : Option LoopOp :=
  match c.toNat with
  | 0 => some .dbeq
  | 1 => some .dbne
  | 2 => some .tbeq
  | 3 => some .tbne
  | 4 => some .ibeq
  | 5 => some .ibne
  | _ => none

/-- Bits 2:0 of `lb`; `010` and `011` name no counter (R103). PRESUMED, unsafe (log 12). -/
def cntrOf (c : BitVec 3) : Option Cntr :=
  match c.toNat with
  | 0 => some .a
  | 1 => some .b
  | 4 => some .d
  | 5 => some .x
  | 6 => some .y
  | 7 => some .sp
  | _ => none

/-- The postbyte `lb`: the instruction, the offset's sign bit and the counter; bit 3 set is reserved (R103, R112). -/
def splitLb (p : Byte) : Option (LoopOp × Bool × Cntr) :=
  if p.getLsbD 3 then none
  else
    match loopOpOf (p.extractLsb' 5 3), cntrOf (p.extractLsb' 0 3) with
    | some o, some c => some (o, p.getLsbD 4, c)
    | _, _ => none

/-! ### Reading operand bytes -/

/-- Why bytes decode to nothing. -/
inductive DecodeError where
  /-- An `xb` of a class the row does not list (R101, R112). -/
  | reservedIndexed
  /-- An `eb` with bit 3 set or naming register code 011 (R102, R112). -/
  | reservedTransfer
  /-- An `lb` with bits 7:6 = 11, bit 3 set, or no counter (R103, R112). -/
  | reservedLoop
  /-- The list ends inside the instruction; never the case for the six bytes a step fetches. -/
  | truncated
  deriving DecidableEq, Repr

/-- What a decoder answers: an instruction and the bytes after it, or a reason. -/
abbrev Parse := Except DecodeError (Instr × List Byte)

/-- The instruction is complete; `r` are the bytes after it. -/
def done (i : Instr) (r : List Byte) : Parse := .ok (i, r)

/-- Read one operand byte. -/
def withByte (k : Byte → List Byte → Parse) : List Byte → Parse
  | b :: r => k b r
  | [] => .error .truncated

/-- Read a 16-bit field, high byte first (20_memory.md R54). -/
def withWord (k : Word → List Byte → Parse) : List Byte → Parse
  | h :: l :: r => k (joinBytes h l) r
  | _ => .error .truncated

/-- Read `xb` and its extension bytes (R92, R107 (3)). -/
def withIdx (k : Idx → List Byte → Parse) : List Byte → Parse
  | [] => .error .truncated
  | p :: r =>
    match splitXb p with
    | .off5 b n => k (.off5 b n) r
    | .auto b post n => k (.auto b post n) r
    | .acc b o => k (.acc b o) r
    | .off9 b sign => withByte (fun ff => k (.off9 b (BitVec.ofBool sign ++ ff))) r
    | .off16 b => withWord (fun w => k (.off16 b w)) r
    | .indD b => k (.indD b) r
    | .ind16 b => withWord (fun w => k (.ind16 b w)) r

/-- Read an `xb` of the mode IDX only (R101). -/
def withShort (k : Idx → List Byte → Parse) : List Byte → Parse :=
  withIdx fun i r => if i.isShort then k i r else .error .reservedIndexed

/-- Read an `xb` of IDX, IDX1 or IDX2 only (R101). -/
def withDirect (k : Idx → List Byte → Parse) : List Byte → Parse :=
  withIdx fun i r => if i.isIndirect then .error .reservedIndexed else k i r

/-- Read a DIR operand (R87). -/
def withDir (k : Addr → List Byte → Parse) : List Byte → Parse := withByte fun dd => k (.dir dd)

/-- Read an EXT operand (R88). -/
def withExt (k : Addr → List Byte → Parse) : List Byte → Parse := withWord fun a => k (.ext a)

/-- Read an indexed operand of any class. -/
def withAny (k : Addr → List Byte → Parse) : List Byte → Parse := withIdx fun i => k (.idx i)

/-- The operand mode that the opcode's high nibble selects in the accumulator groups (41_logic_compare_clear.md R160). -/
inductive Mode where
  | imm | dir | idx | ext
  deriving DecidableEq, Repr

/-- Read an 8-bit source operand (R160). -/
def withSrc8 (m : Mode) (k : Src8 → List Byte → Parse) : List Byte → Parse :=
  match m with
  | .imm => withByte fun ii => k (.imm ii)
  | .dir => withDir fun a => k (.mem a)
  | .idx => withAny fun a => k (.mem a)
  | .ext => withExt fun a => k (.mem a)

/-- Read a 16-bit source operand (R86, R160). -/
def withSrc16 (m : Mode) (k : Src16 → List Byte → Parse) : List Byte → Parse :=
  match m with
  | .imm => withWord fun w => k (.imm w)
  | .dir => withDir fun a => k (.mem a)
  | .idx => withAny fun a => k (.mem a)
  | .ext => withExt fun a => k (.mem a)

/-- BSET, BCLR after the address: the mask byte (R104). -/
def withMask (k : Addr → Byte → Instr) (a : Addr) : List Byte → Parse :=
  withByte fun mm => done (k a mm)

/-- BRSET, BRCLR after the address: the mask byte, then the offset (R82, R104). -/
def withMaskRel (k : Addr → Byte → Byte → Instr) (a : Addr) : List Byte → Parse :=
  withByte fun mm => withByte fun rr => done (k a mm rr)

/-- `lb rr` of the loop primitives (R90, R103). -/
def parseLoop : List Byte → Parse
  | lb :: rr :: r =>
    match splitLb lb with
    | some (.dbeq, s, c) => done (.dbeq c (BitVec.ofBool s ++ rr)) r
    | some (.dbne, s, c) => done (.dbne c (BitVec.ofBool s ++ rr)) r
    | some (.tbeq, s, c) => done (.tbeq c (BitVec.ofBool s ++ rr)) r
    | some (.tbne, s, c) => done (.tbne c (BitVec.ofBool s ++ rr)) r
    | some (.ibeq, s, c) => done (.ibeq c (BitVec.ofBool s ++ rr)) r
    | some (.ibne, s, c) => done (.ibne c (BitVec.ofBool s ++ rr)) r
    | none => .error .reservedLoop
  | _ => .error .truncated

/-- `eb` of EXG and TFR (R102). -/
def parseTransfer : List Byte → Parse :=
  withByte fun eb r =>
    match splitEb eb with
    | some (true, r1, r2) => done (.exg r1 r2) r
    | some (false, r1, r2) => done (.tfr r1 r2) r
    | none => .error .reservedTransfer

/-- The indexed CALL forms: the page byte follows unless the mode is indirect (R105, 46_call_return_system.md R301). -/
def parseCallIdx : List Byte → Parse :=
  withIdx fun i r =>
    if i.isIndirect then done (.call (.ind i)) r else withByte (fun pg => done (.call (.idx i pg))) r

/-! ### Page 2 (`18 xx`): R109, 48_lost_rows.md -/

/-- `18 00` to `18 0F` (48_lost_rows.md R401, R429, R450, R451, R469, R470). Where the two operands of a move have the same form,
`hh ll hh ll` or `xb xb`, R450 and R451 do not say which group is the source: the first one is. PRESUMED, unsafe (log 42). -/
def page2Row0 (lo : Nat) (bs : List Byte) : Parse :=
  match lo with
  | 0x0 => withShort (fun i => withWord fun w => done (.movw (.imm w) (.idx i))) bs
  | 0x1 => withShort (fun i => withWord fun a => done (.movw (.mem (.ext a)) (.idx i))) bs
  | 0x2 => withShort (fun i => withShort fun j => done (.movw (.mem (.idx i)) (.idx j))) bs
  | 0x3 => withWord (fun w => withWord fun b => done (.movw (.imm w) (.ext b))) bs
  | 0x4 => withWord (fun a => withWord fun b => done (.movw (.mem (.ext a)) (.ext b))) bs
  | 0x5 => withShort (fun i => withWord fun b => done (.movw (.mem (.idx i)) (.ext b))) bs
  | 0x6 => done .aba bs
  | 0x7 => done .daa bs
  | 0x8 => withShort (fun i => withByte fun ii => done (.movb (.imm ii) (.idx i))) bs
  | 0x9 => withShort (fun i => withWord fun a => done (.movb (.mem (.ext a)) (.idx i))) bs
  | 0xA => withShort (fun i => withShort fun j => done (.movb (.mem (.idx i)) (.idx j))) bs
  | 0xB => withByte (fun ii => withWord fun b => done (.movb (.imm ii) (.ext b))) bs
  | 0xC => withWord (fun a => withWord fun b => done (.movb (.mem (.ext a)) (.ext b))) bs
  | 0xD => withShort (fun i => withWord fun b => done (.movb (.mem (.idx i)) (.ext b))) bs
  | 0xE => done .tab bs
  | _ => done .tba bs

/-- `18 10` to `18 1F` (R109; MINA R448, MINM R449). -/
def page2Row1 (lo : Nat) (bs : List Byte) : Parse :=
  match lo with
  | 0x0 => done .idiv bs
  | 0x1 => done .fdiv bs
  | 0x2 => withWord (fun a => done (.emacs a)) bs
  | 0x3 => done .emuls bs
  | 0x4 => done .edivs bs
  | 0x5 => done .idivs bs
  | 0x6 => done .sba bs
  | 0x7 => done .cba bs
  | 0x8 => withIdx (fun i => done (.maxa i)) bs
  | 0x9 => withIdx (fun i => done (.mina i)) bs
  | 0xA => withIdx (fun i => done (.emaxd i)) bs
  | 0xB => withIdx (fun i => done (.emind i)) bs
  | 0xC => withIdx (fun i => done (.maxm i)) bs
  | 0xD => withIdx (fun i => done (.minm i)) bs
  | 0xE => withIdx (fun i => done (.emaxm i)) bs
  | _ => withIdx (fun i => done (.eminm i)) bs

/-- `18 20` to `18 2F`: the long branches (R91, 48_lost_rows.md R431). -/
def page2Row2 (lo : Nat) (bs : List Byte) : Parse :=
  match lo with
  | 0x0 => withWord (fun w => done (.lbra w)) bs
  | 0x1 => withWord (fun w => done (.lbrn w)) bs
  | 0x2 => withWord (fun w => done (.lbhi w)) bs
  | 0x3 => withWord (fun w => done (.lbls w)) bs
  | 0x4 => withWord (fun w => done (.lbcc w)) bs
  | 0x5 => withWord (fun w => done (.lbcs w)) bs
  | 0x6 => withWord (fun w => done (.lbne w)) bs
  | 0x7 => withWord (fun w => done (.lbeq w)) bs
  | 0x8 => withWord (fun w => done (.lbvc w)) bs
  | 0x9 => withWord (fun w => done (.lbvs w)) bs
  | 0xA => withWord (fun w => done (.lbpl w)) bs
  | 0xB => withWord (fun w => done (.lbmi w)) bs
  | 0xC => withWord (fun w => done (.lbge w)) bs
  | 0xD => withWord (fun w => done (.lblt w)) bs
  | 0xE => withWord (fun w => done (.lbgt w)) bs
  | _ => withWord (fun w => done (.lble w)) bs

/-- Page 2, by the two nibbles of the second byte: traps are `30` to `39` and `40` to `FF` (R109, R111). -/
def decodePage2 : List Byte → Parse
  | [] => .error .truncated
  | op :: bs =>
    match op.toNat / 16, op.toNat % 16 with
    | 0x0, lo => page2Row0 lo bs
    | 0x1, lo => page2Row1 lo bs
    | 0x2, lo => page2Row2 lo bs
    | 0x3, 0xA => done .rev bs
    | 0x3, 0xB => done .revw bs
    | 0x3, 0xC => done .wav bs
    | 0x3, 0xD => withShort (fun i => done (.tbl i)) bs
    | 0x3, 0xE => done .stop bs
    | 0x3, 0xF => withShort (fun i => done (.etbl i)) bs
    | _, _ => done (.trap op) bs

/-! ### Page 1: R108, 48_lost_rows.md -/

/-- `00` to `0F`. -/
def page1Row0 (lo : Nat) (bs : List Byte) : Parse :=
  match lo with
  | 0x0 => done .bgnd bs
  | 0x1 => done .mem bs
  | 0x2 => done .iny bs
  | 0x3 => done .dey bs
  | 0x4 => parseLoop bs
  | 0x5 => withAny (fun a => done (.jmp a)) bs
  | 0x6 => withExt (fun a => done (.jmp a)) bs
  | 0x7 => withByte (fun rr => done (.bsr rr)) bs
  | 0x8 => done .inx bs
  | 0x9 => done .dex bs
  | 0xA => done .rtc bs
  | 0xB => done .rti bs
  | 0xC => withDirect (fun i => withMask .bset (.idx i)) bs
  | 0xD => withDirect (fun i => withMask .bclr (.idx i)) bs
  | 0xE => withDirect (fun i => withMaskRel .brset (.idx i)) bs
  | _ => withDirect (fun i => withMaskRel .brclr (.idx i)) bs

/-- `10` to `1F`; `18` is the page-2 byte (R81). -/
def page1Row1 (lo : Nat) (bs : List Byte) : Parse :=
  match lo with
  | 0x0 => withByte (fun ii => done (.andcc ii)) bs
  | 0x1 => done .ediv bs
  | 0x2 => done .mul bs
  | 0x3 => done .emul bs
  | 0x4 => withByte (fun ii => done (.orcc ii)) bs
  | 0x5 => withAny (fun a => done (.jsr a)) bs
  | 0x6 => withExt (fun a => done (.jsr a)) bs
  | 0x7 => withDir (fun a => done (.jsr a)) bs
  | 0x8 => decodePage2 bs
  | 0x9 => withDirect (fun i => done (.leay i)) bs
  | 0xA => withDirect (fun i => done (.leax i)) bs
  | 0xB => withDirect (fun i => done (.leas i)) bs
  | 0xC => withExt (withMask .bset) bs
  | 0xD => withExt (withMask .bclr) bs
  | 0xE => withExt (withMaskRel .brset) bs
  | _ => withExt (withMaskRel .brclr) bs

/-- `20` to `2F`: the short branches (R89; BHI BEQ BGE BGT of 48_lost_rows.md). -/
def page1Row2 (lo : Nat) (bs : List Byte) : Parse :=
  match lo with
  | 0x0 => withByte (fun rr => done (.bra rr)) bs
  | 0x1 => withByte (fun rr => done (.brn rr)) bs
  | 0x2 => withByte (fun rr => done (.bhi rr)) bs
  | 0x3 => withByte (fun rr => done (.bls rr)) bs
  | 0x4 => withByte (fun rr => done (.bhs rr)) bs
  | 0x5 => withByte (fun rr => done (.blo rr)) bs
  | 0x6 => withByte (fun rr => done (.bne rr)) bs
  | 0x7 => withByte (fun rr => done (.beq rr)) bs
  | 0x8 => withByte (fun rr => done (.bvc rr)) bs
  | 0x9 => withByte (fun rr => done (.bvs rr)) bs
  | 0xA => withByte (fun rr => done (.bpl rr)) bs
  | 0xB => withByte (fun rr => done (.bmi rr)) bs
  | 0xC => withByte (fun rr => done (.bge rr)) bs
  | 0xD => withByte (fun rr => done (.blt rr)) bs
  | 0xE => withByte (fun rr => done (.bgt rr)) bs
  | _ => withByte (fun rr => done (.ble rr)) bs

/-- `30` to `3F`. -/
def page1Row3 (lo : Nat) (bs : List Byte) : Parse :=
  match lo with
  | 0x0 => done .pulx bs
  | 0x1 => done .puly bs
  | 0x2 => done .pula bs
  | 0x3 => done .pulb bs
  | 0x4 => done .pshx bs
  | 0x5 => done .pshy bs
  | 0x6 => done .psha bs
  | 0x7 => done .pshb bs
  | 0x8 => done .pulc bs
  | 0x9 => done .pshc bs
  | 0xA => done .puld bs
  | 0xB => done .pshd bs
  | 0xC => done .wavr bs
  | 0xD => done .rts bs
  | 0xE => done .wai bs
  | _ => done .swi bs

/-- `40` to `4F`. -/
def page1Row4 (lo : Nat) (bs : List Byte) : Parse :=
  match lo with
  | 0x0 => done .nega bs
  | 0x1 => done .coma bs
  | 0x2 => done .inca bs
  | 0x3 => done .deca bs
  | 0x4 => done .lsra bs
  | 0x5 => done .rola bs
  | 0x6 => done .rora bs
  | 0x7 => done .asra bs
  | 0x8 => done .lsla bs
  | 0x9 => done .lsrd bs
  | 0xA => withWord (fun a => withByte fun pg => done (.call (.ext a pg))) bs
  | 0xB => parseCallIdx bs
  | 0xC => withDir (withMask .bset) bs
  | 0xD => withDir (withMask .bclr) bs
  | 0xE => withDir (withMaskRel .brset) bs
  | _ => withDir (withMaskRel .brclr) bs

/-- `50` to `5F`. -/
def page1Row5 (lo : Nat) (bs : List Byte) : Parse :=
  match lo with
  | 0x0 => done .negb bs
  | 0x1 => done .comb bs
  | 0x2 => done .incb bs
  | 0x3 => done .decb bs
  | 0x4 => done .lsrb bs
  | 0x5 => done .rolb bs
  | 0x6 => done .rorb bs
  | 0x7 => done .asrb bs
  | 0x8 => done .lslb bs
  | 0x9 => done .lsld bs
  | 0xA => withDir (fun a => done (.staa a)) bs
  | 0xB => withDir (fun a => done (.stab a)) bs
  | 0xC => withDir (fun a => done (.std a)) bs
  | 0xD => withDir (fun a => done (.sty a)) bs
  | 0xE => withDir (fun a => done (.stx a)) bs
  | _ => withDir (fun a => done (.sts a)) bs

/-- `60` to `6F` (indexed) and `70` to `7F` (EXT): the same sixteen instructions on a memory operand `a`. -/
def memoryRow (lo : Nat) (a : Addr) (bs : List Byte) : Parse :=
  match lo with
  | 0x0 => done (.neg a) bs
  | 0x1 => done (.com a) bs
  | 0x2 => done (.inc a) bs
  | 0x3 => done (.dec a) bs
  | 0x4 => done (.lsr a) bs
  | 0x5 => done (.rol a) bs
  | 0x6 => done (.ror a) bs
  | 0x7 => done (.asr a) bs
  | 0x8 => done (.lsl a) bs
  | 0x9 => done (.clr a) bs
  | 0xA => done (.staa a) bs
  | 0xB => done (.stab a) bs
  | 0xC => done (.std a) bs
  | 0xD => done (.sty a) bs
  | 0xE => done (.stx a) bs
  | _ => done (.sts a) bs

/-- `8x` IMM, `9x` DIR, `Ax` indexed, `Bx` EXT: the accumulator-A group (41_logic_compare_clear.md R160). -/
def groupA (m : Mode) (lo : Nat) (bs : List Byte) : Parse :=
  match lo with
  | 0x0 => withSrc8 m (fun o => done (.suba o)) bs
  | 0x1 => withSrc8 m (fun o => done (.cmpa o)) bs
  | 0x2 => withSrc8 m (fun o => done (.sbca o)) bs
  | 0x3 => withSrc16 m (fun o => done (.subd o)) bs
  | 0x4 => withSrc8 m (fun o => done (.anda o)) bs
  | 0x5 => withSrc8 m (fun o => done (.bita o)) bs
  | 0x6 => withSrc8 m (fun o => done (.ldaa o)) bs
  | 0x7 =>
    match m with
    | .imm => done .clra bs
    | .dir => done .tsta bs
    | .idx => done .nop bs
    | .ext => parseTransfer bs
  | 0x8 => withSrc8 m (fun o => done (.eora o)) bs
  | 0x9 => withSrc8 m (fun o => done (.adca o)) bs
  | 0xA => withSrc8 m (fun o => done (.oraa o)) bs
  | 0xB => withSrc8 m (fun o => done (.adda o)) bs
  | 0xC => withSrc16 m (fun o => done (.cpd o)) bs
  | 0xD => withSrc16 m (fun o => done (.cpy o)) bs
  | 0xE => withSrc16 m (fun o => done (.cpx o)) bs
  | _ => withSrc16 m (fun o => done (.cps o)) bs

/-- `Cx` IMM, `Dx` DIR, `Ex` indexed, `Fx` EXT: the accumulator-B group (R160). -/
def groupB (m : Mode) (lo : Nat) (bs : List Byte) : Parse :=
  match lo with
  | 0x0 => withSrc8 m (fun o => done (.subb o)) bs
  | 0x1 => withSrc8 m (fun o => done (.cmpb o)) bs
  | 0x2 => withSrc8 m (fun o => done (.sbcb o)) bs
  | 0x3 => withSrc16 m (fun o => done (.addd o)) bs
  | 0x4 => withSrc8 m (fun o => done (.andb o)) bs
  | 0x5 => withSrc8 m (fun o => done (.bitb o)) bs
  | 0x6 => withSrc8 m (fun o => done (.ldab o)) bs
  | 0x7 =>
    match m with
    | .imm => done .clrb bs
    | .dir => done .tstb bs
    | .idx => withAny (fun a => done (.tst a)) bs
    | .ext => withExt (fun a => done (.tst a)) bs
  | 0x8 => withSrc8 m (fun o => done (.eorb o)) bs
  | 0x9 => withSrc8 m (fun o => done (.adcb o)) bs
  | 0xA => withSrc8 m (fun o => done (.orab o)) bs
  | 0xB => withSrc8 m (fun o => done (.addb o)) bs
  | 0xC => withSrc16 m (fun o => done (.ldd o)) bs
  | 0xD => withSrc16 m (fun o => done (.ldy o)) bs
  | 0xE => withSrc16 m (fun o => done (.ldx o)) bs
  | _ => withSrc16 m (fun o => done (.lds o)) bs

/-- The decoder, by the two nibbles of the first byte (R81, R107). -/
def decode : List Byte → Parse
  | [] => .error .truncated
  | op :: bs =>
    let lo := op.toNat % 16
    match op.toNat / 16 with
    | 0x0 => page1Row0 lo bs
    | 0x1 => page1Row1 lo bs
    | 0x2 => page1Row2 lo bs
    | 0x3 => page1Row3 lo bs
    | 0x4 => page1Row4 lo bs
    | 0x5 => page1Row5 lo bs
    | 0x6 => withAny (memoryRow lo) bs
    | 0x7 => withExt (memoryRow lo) bs
    | 0x8 => groupA .imm lo bs
    | 0x9 => groupA .dir lo bs
    | 0xA => groupA .idx lo bs
    | 0xB => groupA .ext lo bs
    | 0xC => groupB .imm lo bs
    | 0xD => groupB .dir lo bs
    | 0xE => groupB .idx lo bs
    | _ => groupB .ext lo bs

/-! ### The encoder -/

/-- Base register codes (R92). -/
def Base.code : Base → BitVec 2
  | .x => 0
  | .y => 1
  | .sp => 2
  | .pc => 3

/-- Register codes of the auto forms (R94). -/
def AutoReg.code : AutoReg → BitVec 2
  | .x => 0
  | .y => 1
  | .sp => 2

/-- Accumulator codes (R95). -/
def AccOff.code : AccOff → BitVec 2
  | .a => 0
  | .b => 1
  | .d => 2

/-- `xb` and its extension bytes, by the bit patterns of R92. -/
def encIdx : Idx → List Byte
  | .off5 r n => [r.code ++ 0#1 ++ n]
  | .auto r post n => [r.code ++ 1#1 ++ BitVec.ofBool post ++ n]
  | .acc r o => [0b111#3 ++ r.code ++ 1#1 ++ o.code]
  | .off9 r n => [0b111#3 ++ r.code ++ 0b00#2 ++ n.extractLsb' 8 1, n.extractLsb' 0 8]
  | .off16 r n => [0b111#3 ++ r.code ++ 0b010#3, hiByte n, loByte n]
  | .indD r => [0b111#3 ++ r.code ++ 0b111#3]
  | .ind16 r n => [0b111#3 ++ r.code ++ 0b011#3, hiByte n, loByte n]

/-- Counter codes of `lb` (R103). -/
def Cntr.code : Cntr → BitVec 3
  | .a => 0
  | .b => 1
  | .d => 4
  | .x => 5
  | .y => 6
  | .sp => 7

/-- Register codes of `eb` (R102). -/
def R8.code : R8 → BitVec 3
  | .a => 0
  | .b => 1
  | .ccr => 2

/-- Register codes of `eb` (R102). -/
def R16.code : R16 → BitVec 3
  | .d => 4
  | .x => 5
  | .y => 6
  | .sp => 7

/-- Register codes of `eb` (R102). -/
def XReg.code : XReg → BitVec 3
  | .r8 r => r.code
  | .r16 r => r.code

/-- `B7 eb` (R102). -/
def encTransfer (exchange : Bool) (r1 r2 : XReg) : List Byte :=
  [0xB7#8, BitVec.ofBool exchange ++ r1.code ++ 0#1 ++ r2.code]

/-- `04 lb rr` (R90, R103). -/
def encLoop (sel : BitVec 3) (c : Cntr) (off : BitVec 9) : List Byte :=
  [0x04#8, sel ++ off.extractLsb' 8 1 ++ 0#1 ++ c.code, off.extractLsb' 0 8]

/-- A word field, high byte first (20_memory.md R54). -/
def encWord (w : Word) : List Byte := [hiByte w, loByte w]

/-- A memory operand behind the opcode its mode selects. -/
def encAddr (dirOp idxOp extOp : Byte) : Addr → List Byte
  | .dir dd => [dirOp, dd]
  | .idx i => idxOp :: encIdx i
  | .ext a => extOp :: encWord a

/-- A memory operand of a row without DIR; DIR has no encoding there. -/
def encNoDir (idxOp extOp : Byte) : Addr → List Byte
  | .dir _ => []
  | .idx i => idxOp :: encIdx i
  | .ext a => extOp :: encWord a

/-- IMM, DIR, EXT and indexed opcodes of an 8-bit source (41_logic_compare_clear.md R160). -/
def encSrc8 (immOp dirOp idxOp extOp : Byte) : Src8 → List Byte
  | .imm ii => [immOp, ii]
  | .mem m => encAddr dirOp idxOp extOp m

/-- IMM, DIR, EXT and indexed opcodes of a 16-bit source (48_lost_rows.md). -/
def encSrc16 (immOp dirOp idxOp extOp : Byte) : Src16 → List Byte
  | .imm w => immOp :: encWord w
  | .mem m => encAddr dirOp idxOp extOp m

/-- `4A hh ll pg`, `4B xb .. pg`, `4B xb ..` (46_call_return_system.md R300, R301). -/
def encCall : CallTo → List Byte
  | .ext a pg => 0x4A#8 :: encWord a ++ [pg]
  | .idx i pg => 0x4B#8 :: encIdx i ++ [pg]
  | .ind i => 0x4B#8 :: encIdx i

/-- MOVB's six forms (48_lost_rows.md R450); of two equal groups the source comes first (log 42). -/
def encMovb : Src8 → Addr → List Byte
  | .imm ii, .ext b => [0x18#8, 0x0B#8, ii] ++ encWord b
  | .imm ii, .idx i => [0x18#8, 0x08#8] ++ encIdx i ++ [ii]
  | .mem (.ext a), .ext b => [0x18#8, 0x0C#8] ++ encWord a ++ encWord b
  | .mem (.ext a), .idx i => [0x18#8, 0x09#8] ++ encIdx i ++ encWord a
  | .mem (.idx i), .ext b => [0x18#8, 0x0D#8] ++ encIdx i ++ encWord b
  | .mem (.idx i), .idx j => [0x18#8, 0x0A#8] ++ encIdx i ++ encIdx j
  | .mem (.dir _), _ => []
  | _, .dir _ => []

/-- MOVW's six forms (48_lost_rows.md R451); of two equal groups the source comes first (log 42). -/
def encMovw : Src16 → Addr → List Byte
  | .imm w, .ext b => [0x18#8, 0x03#8] ++ encWord w ++ encWord b
  | .imm w, .idx i => [0x18#8, 0x00#8] ++ encIdx i ++ encWord w
  | .mem (.ext a), .ext b => [0x18#8, 0x04#8] ++ encWord a ++ encWord b
  | .mem (.ext a), .idx i => [0x18#8, 0x01#8] ++ encIdx i ++ encWord a
  | .mem (.idx i), .ext b => [0x18#8, 0x05#8] ++ encIdx i ++ encWord b
  | .mem (.idx i), .idx j => [0x18#8, 0x02#8] ++ encIdx i ++ encIdx j
  | .mem (.dir _), _ => []
  | _, .dir _ => []

/-- The bytes of a well-formed instruction, from the Encoding clause of its rule; an ill-formed operand may have none. -/
def encode : Instr → List Byte
  | .bra rr => [0x20#8, rr]
  | .brn rr => [0x21#8, rr]
  | .bls rr => [0x23#8, rr]
  | .bhs rr => [0x24#8, rr]
  | .blo rr => [0x25#8, rr]
  | .bne rr => [0x26#8, rr]
  | .bvc rr => [0x28#8, rr]
  | .bvs rr => [0x29#8, rr]
  | .bpl rr => [0x2A#8, rr]
  | .bmi rr => [0x2B#8, rr]
  | .blt rr => [0x2D#8, rr]
  | .ble rr => [0x2F#8, rr]
  | .bcc rr => [0x24#8, rr]
  | .bcs rr => [0x25#8, rr]
  | .bsr rr => [0x07#8, rr]
  | .brclr m mm rr => encAddr 0x4F#8 0x0F#8 0x1F#8 m ++ [mm, rr]
  | .brset m mm rr => encAddr 0x4E#8 0x0E#8 0x1E#8 m ++ [mm, rr]
  | .ibeq c off => encLoop 0b100#3 c off
  | .ibne c off => encLoop 0b101#3 c off
  | .andcc ii => [0x10#8, ii]
  | .clc => [0x10#8, 0xFE#8]
  | .cli => [0x10#8, 0xEF#8]
  | .clv => [0x10#8, 0xFD#8]
  | .bita o => encSrc8 0x85#8 0x95#8 0xA5#8 0xB5#8 o
  | .bitb o => encSrc8 0xC5#8 0xD5#8 0xE5#8 0xF5#8 o
  | .bset m mm => encAddr 0x4C#8 0x0C#8 0x1C#8 m ++ [mm]
  | .cba => [0x18#8, 0x17#8]
  | .clr m => encNoDir 0x69#8 0x79#8 m
  | .clra => [0x87#8]
  | .clrb => [0xC7#8]
  | .cmpa o => encSrc8 0x81#8 0x91#8 0xA1#8 0xB1#8 o
  | .cmpb o => encSrc8 0xC1#8 0xD1#8 0xE1#8 0xF1#8 o
  | .eora o => encSrc8 0x88#8 0x98#8 0xA8#8 0xB8#8 o
  | .eorb o => encSrc8 0xC8#8 0xD8#8 0xE8#8 0xF8#8 o
  | .tst m => encNoDir 0xE7#8 0xF7#8 m
  | .tsta => [0x97#8]
  | .tstb => [0xD7#8]
  | .dec m => encNoDir 0x63#8 0x73#8 m
  | .deca => [0x43#8]
  | .decb => [0x53#8]
  | .des => [0x1B#8, 0x9F#8]
  | .dex => [0x09#8]
  | .dey => [0x03#8]
  | .ediv => [0x11#8]
  | .edivs => [0x18#8, 0x14#8]
  | .emacs hhll => [0x18#8, 0x12#8] ++ encWord hhll
  | .emul => [0x13#8]
  | .emuls => [0x18#8, 0x13#8]
  | .fdiv => [0x18#8, 0x11#8]
  | .idiv => [0x18#8, 0x10#8]
  | .idivs => [0x18#8, 0x15#8]
  | .sba => [0x18#8, 0x16#8]
  | .suba o => encSrc8 0x80#8 0x90#8 0xA0#8 0xB0#8 o
  | .subb o => encSrc8 0xC0#8 0xD0#8 0xE0#8 0xF0#8 o
  | .emaxd i => [0x18#8, 0x1A#8] ++ encIdx i
  | .emaxm i => [0x18#8, 0x1E#8] ++ encIdx i
  | .emind i => [0x18#8, 0x1B#8] ++ encIdx i
  | .eminm i => [0x18#8, 0x1F#8] ++ encIdx i
  | .maxa i => [0x18#8, 0x18#8] ++ encIdx i
  | .maxm i => [0x18#8, 0x1C#8] ++ encIdx i
  | .etbl i => [0x18#8, 0x3F#8] ++ encIdx i
  | .lsl m => encNoDir 0x68#8 0x78#8 m
  | .lsr m => encNoDir 0x64#8 0x74#8 m
  | .rol m => encNoDir 0x65#8 0x75#8 m
  | .ror m => encNoDir 0x66#8 0x76#8 m
  | .asl m => encNoDir 0x68#8 0x78#8 m
  | .lsla => [0x48#8]
  | .lslb => [0x58#8]
  | .lsld => [0x59#8]
  | .lsra => [0x44#8]
  | .lsrb => [0x54#8]
  | .lsrd => [0x49#8]
  | .rola => [0x45#8]
  | .rolb => [0x55#8]
  | .rora => [0x46#8]
  | .rorb => [0x56#8]
  | .asla => [0x48#8]
  | .aslb => [0x58#8]
  | .asld => [0x59#8]
  | .exg r1 r2 => encTransfer true r1 r2
  | .tfr r1 r2 => encTransfer false r1 r2
  | .tsx => [0xB7#8, 0x75#8]
  | .tsy => [0xB7#8, 0x76#8]
  | .txs => [0xB7#8, 0x57#8]
  | .tys => [0xB7#8, 0x67#8]
  | .xgdx => [0xB7#8, 0xC5#8]
  | .xgdy => [0xB7#8, 0xC6#8]
  | .leax i => 0x1A#8 :: encIdx i
  | .leay i => 0x19#8 :: encIdx i
  | .leas i => 0x1B#8 :: encIdx i
  | .psha => [0x36#8]
  | .pshb => [0x37#8]
  | .pshc => [0x39#8]
  | .pshd => [0x3B#8]
  | .pshx => [0x34#8]
  | .pshy => [0x35#8]
  | .pula => [0x32#8]
  | .pulb => [0x33#8]
  | .pulc => [0x38#8]
  | .puld => [0x3A#8]
  | .pulx => [0x30#8]
  | .puly => [0x31#8]
  | .sts m => encAddr 0x5F#8 0x6F#8 0x7F#8 m
  | .stx m => encAddr 0x5E#8 0x6E#8 0x7E#8 m
  | .sty m => encAddr 0x5D#8 0x6D#8 0x7D#8 m
  | .call t => encCall t
  | .rtc => [0x0A#8]
  | .rti => [0x0B#8]
  | .rts => [0x3D#8]
  | .stop => [0x18#8, 0x3E#8]
  | .trap tn => [0x18#8, tn]
  | .wai => [0x3E#8]
  | .mem => [0x01#8]
  | .rev => [0x18#8, 0x3A#8]
  | .revw => [0x18#8, 0x3B#8]
  | .wav => [0x18#8, 0x3C#8]
  | .wavr => [0x3C#8]
  | .aba => [0x18#8, 0x06#8]
  | .abx => [0x1A#8, 0xE5#8]
  | .aby => [0x19#8, 0xED#8]
  | .ins => [0x1B#8, 0x81#8]
  | .adca o => encSrc8 0x89#8 0x99#8 0xA9#8 0xB9#8 o
  | .adcb o => encSrc8 0xC9#8 0xD9#8 0xE9#8 0xF9#8 o
  | .adda o => encSrc8 0x8B#8 0x9B#8 0xAB#8 0xBB#8 o
  | .addb o => encSrc8 0xCB#8 0xDB#8 0xEB#8 0xFB#8 o
  | .addd o => encSrc16 0xC3#8 0xD3#8 0xE3#8 0xF3#8 o
  | .anda o => encSrc8 0x84#8 0x94#8 0xA4#8 0xB4#8 o
  | .andb o => encSrc8 0xC4#8 0xD4#8 0xE4#8 0xF4#8 o
  | .asr m => encNoDir 0x67#8 0x77#8 m
  | .asra => [0x47#8]
  | .asrb => [0x57#8]
  | .bclr m mm => encAddr 0x4D#8 0x0D#8 0x1D#8 m ++ [mm]
  | .beq rr => [0x27#8, rr]
  | .bge rr => [0x2C#8, rr]
  | .bgt rr => [0x2E#8, rr]
  | .bhi rr => [0x22#8, rr]
  | .bgnd => [0x00#8]
  | .com m => encNoDir 0x61#8 0x71#8 m
  | .coma => [0x41#8]
  | .comb => [0x51#8]
  | .cpd o => encSrc16 0x8C#8 0x9C#8 0xAC#8 0xBC#8 o
  | .cps o => encSrc16 0x8F#8 0x9F#8 0xAF#8 0xBF#8 o
  | .cpx o => encSrc16 0x8E#8 0x9E#8 0xAE#8 0xBE#8 o
  | .cpy o => encSrc16 0x8D#8 0x9D#8 0xAD#8 0xBD#8 o
  | .daa => [0x18#8, 0x07#8]
  | .dbeq c off => encLoop 0b000#3 c off
  | .dbne c off => encLoop 0b001#3 c off
  | .tbeq c off => encLoop 0b010#3 c off
  | .tbne c off => encLoop 0b011#3 c off
  | .inc m => encNoDir 0x62#8 0x72#8 m
  | .inca => [0x42#8]
  | .incb => [0x52#8]
  | .inx => [0x08#8]
  | .iny => [0x02#8]
  | .jmp m => encNoDir 0x05#8 0x06#8 m
  | .jsr m => encAddr 0x17#8 0x15#8 0x16#8 m
  | .lbra w => [0x18#8, 0x20#8] ++ encWord w
  | .lbrn w => [0x18#8, 0x21#8] ++ encWord w
  | .lbhi w => [0x18#8, 0x22#8] ++ encWord w
  | .lbls w => [0x18#8, 0x23#8] ++ encWord w
  | .lbcc w => [0x18#8, 0x24#8] ++ encWord w
  | .lbcs w => [0x18#8, 0x25#8] ++ encWord w
  | .lbne w => [0x18#8, 0x26#8] ++ encWord w
  | .lbeq w => [0x18#8, 0x27#8] ++ encWord w
  | .lbvc w => [0x18#8, 0x28#8] ++ encWord w
  | .lbvs w => [0x18#8, 0x29#8] ++ encWord w
  | .lbpl w => [0x18#8, 0x2A#8] ++ encWord w
  | .lbmi w => [0x18#8, 0x2B#8] ++ encWord w
  | .lbge w => [0x18#8, 0x2C#8] ++ encWord w
  | .lblt w => [0x18#8, 0x2D#8] ++ encWord w
  | .lbgt w => [0x18#8, 0x2E#8] ++ encWord w
  | .lble w => [0x18#8, 0x2F#8] ++ encWord w
  | .lbhs w => [0x18#8, 0x24#8] ++ encWord w
  | .lblo w => [0x18#8, 0x25#8] ++ encWord w
  | .ldaa o => encSrc8 0x86#8 0x96#8 0xA6#8 0xB6#8 o
  | .ldab o => encSrc8 0xC6#8 0xD6#8 0xE6#8 0xF6#8 o
  | .ldd o => encSrc16 0xCC#8 0xDC#8 0xEC#8 0xFC#8 o
  | .lds o => encSrc16 0xCF#8 0xDF#8 0xEF#8 0xFF#8 o
  | .ldx o => encSrc16 0xCE#8 0xDE#8 0xEE#8 0xFE#8 o
  | .ldy o => encSrc16 0xCD#8 0xDD#8 0xED#8 0xFD#8 o
  | .mina i => [0x18#8, 0x19#8] ++ encIdx i
  | .minm i => [0x18#8, 0x1D#8] ++ encIdx i
  | .movb src dst => encMovb src dst
  | .movw src dst => encMovw src dst
  | .mul => [0x12#8]
  | .neg m => encNoDir 0x60#8 0x70#8 m
  | .nega => [0x40#8]
  | .negb => [0x50#8]
  | .nop => [0xA7#8]
  | .oraa o => encSrc8 0x8A#8 0x9A#8 0xAA#8 0xBA#8 o
  | .orab o => encSrc8 0xCA#8 0xDA#8 0xEA#8 0xFA#8 o
  | .orcc ii => [0x14#8, ii]
  | .sec => [0x14#8, 0x01#8]
  | .sei => [0x14#8, 0x10#8]
  | .sev => [0x14#8, 0x02#8]
  | .sbca o => encSrc8 0x82#8 0x92#8 0xA2#8 0xB2#8 o
  | .sbcb o => encSrc8 0xC2#8 0xD2#8 0xE2#8 0xF2#8 o
  | .sex r1 r2 => encTransfer false (.r8 r1) (.r16 r2)
  | .staa m => encAddr 0x5A#8 0x6A#8 0x7A#8 m
  | .stab m => encAddr 0x5B#8 0x6B#8 0x7B#8 m
  | .std m => encAddr 0x5C#8 0x6C#8 0x7C#8 m
  | .subd o => encSrc16 0x83#8 0x93#8 0xA3#8 0xB3#8 o
  | .swi => [0x3F#8]
  | .tab => [0x18#8, 0x0E#8]
  | .tba => [0x18#8, 0x0F#8]
  | .tap => [0xB7#8, 0x02#8]
  | .tpa => [0xB7#8, 0x20#8]
  | .tbl i => [0x18#8, 0x3D#8] ++ encIdx i

/-- The general instruction an alias mnemonic stands for (R115, R402, R403, R411, R415, R431, R436, R462, R463, R471,
R472); every other instruction is its own. -/
def Instr.core : Instr → Instr
  | .bcc rr => .bhs rr
  | .bcs rr => .blo rr
  | .clc => .andcc 0xFE#8
  | .cli => .andcc 0xEF#8
  | .clv => .andcc 0xFD#8
  | .des => .leas (.off5 .sp (-1))
  | .asl m => .lsl m
  | .asla => .lsla
  | .aslb => .lslb
  | .asld => .lsld
  | .tsx => .tfr (.r16 .sp) (.r16 .x)
  | .tsy => .tfr (.r16 .sp) (.r16 .y)
  | .txs => .tfr (.r16 .x) (.r16 .sp)
  | .tys => .tfr (.r16 .y) (.r16 .sp)
  | .xgdx => .exg (.r16 .d) (.r16 .x)
  | .xgdy => .exg (.r16 .d) (.r16 .y)
  | .abx => .leax (.acc .x .b)
  | .aby => .leay (.acc .y .b)
  | .ins => .leas (.off5 .sp 1)
  | .lbhs w => .lbcc w
  | .lblo w => .lbcs w
  | .sec => .orcc 0x01#8
  | .sei => .orcc 0x10#8
  | .sev => .orcc 0x02#8
  | .sex r1 r2 => .tfr (.r8 r1) (.r16 r2)
  | .tap => .tfr (.r8 .a) (.r8 .ccr)
  | .tpa => .tfr (.r8 .ccr) (.r8 .a)
  | i => i

/-! ### The table's words -/

/-- The six bytes an instruction's word stands for: byte k is bits 8k+7..8k of `w`, and every bit above `nbits` is 0. -/
def tableBytes (nbits w : Nat) : List Byte :=
  (List.range 6).map fun k => BitVec.ofNat 8 ((w % 2 ^ nbits) >>> (8 * k))

/-- The instruction the decoder reads from a table row's word, numbered with the first byte lowest. -/
def decodeTableWord (nbits w : Nat) : Option Instr :=
  match decode (tableBytes nbits w) with
  | .ok (i, _) => some i
  | .error _ => none

end Sys2Proof
end

