-- ==== Sys2Proof/Machine/State.lean ====
section
/-! DEFINITION. The machine's state as plain data (10_state.md), the reasons a step can stop, and the state after reset. -/

namespace Sys2Proof.Machine

/-- Run state (10_state.md R40). -/
inductive RunState where
  | running
  | waiting
  | stopped
  deriving DecidableEq, Repr

/-- What can request the CPU's attention between instructions (60_exceptions.md R507). A peripheral is named by the
address of its vector, `VEC(src)`, which the part fixes. -/
inductive IntSource where
  | reset
  | clockMonitor
  | cop
  | xirq
  | irq
  | peripheral (vector : Word)
  deriving DecidableEq, Repr

/-- Memory: the bytes that differ from what an unlisted address reads as, addresses strictly rising. -/
abbrev Mem := List Host.Cell

/-- What an address that memory does not list reads as. DESIGN CHOICE, unsafe (log 4). -/
def Mem.unlisted : Byte := 0x00#8

/-- The canonical form: addresses inside the 64K space and strictly rising, no byte equal to `Mem.unlisted`. -/
def Mem.wf : Mem → Bool
  | [] => true
  | [c] => decide (c.1 < 0x10000) && c.2 != Mem.unlisted
  | c :: d :: r => decide (c.1 < d.1) && c.2 != Mem.unlisted && Mem.wf (d :: r)

/-- The state of the CPU12. -/
@[ext]
structure State where
  /-- Accumulator A (10_state.md R21). -/
  a : Byte
  /-- Accumulator B (R21). -/
  b : Byte
  /-- Index register X (R23). -/
  x : Word
  /-- Index register Y (R23). -/
  y : Word
  /-- Stack pointer: the address of the last byte pushed (R24). -/
  sp : Word
  /-- Program counter; while an instruction runs, the address of the byte after it (R26, 00_scope.md R11). -/
  pc : Word
  /-- Condition code register, bit 7 to bit 0 S X H I N Z V C (R27). -/
  ccr : Byte
  /-- Program page register (R37). -/
  ppage : Byte
  /-- Memory: the byte of storage each address reaches through `PageMap` (20_memory.md R50, R51, R64). -/
  mem : Mem
  /-- Run state (R40). -/
  run : RunState
  /-- The interrupt requests the environment asserts now (R41); no step changes them (log 20). -/
  requests : List IntSource
  /-- Bytes the instruction queue may still hold as they were before a store (R43, 20_memory.md R69; log 19). -/
  stale : List Host.Cell
  /-- The model's own: how many free values the run has used (log 8). -/
  draws : Nat
  deriving DecidableEq, Repr

/-- Why a step faults. The spec's machine has no fault (60_exceptions.md R500, R513): there is no constructor. -/
inductive Fault
  deriving DecidableEq, Repr

/-- Why a step has no meaning. -/
inductive Refusal where
  /-- An instruction not modelled yet, by mnemonic; raised by exec only. Safe. -/
  | notModelled (mnemonic : String)
  /-- The bytes at PC are no instruction: a reserved postbyte (30_encoding.md R112). Raised by step. Safe (log 33). -/
  | undecodable (e : DecodeError)
  /-- An access to an address `IoRegion` covers: a device's, which the spec does not describe (20_memory.md R62). Raised by
  step. Safe (log 5). -/
  | ioRegion (addr : Word)
  /-- An access to an address that `Mapped` leaves out (20_memory.md R65, D6). Raised by step. Safe (log 5). -/
  | unmapped (addr : Word)
  /-- A write to an address that `Writable` leaves out (R65, D6). Raised by step. Safe (log 5). -/
  | notWritable (addr : Word)
  deriving DecidableEq, Repr

/-- The state after reset (10_state.md R45, 70_reset_and_hazards.md R540): S = X = I = 1, RUNNING, PC the word at
`VEC_RESET` of a memory that lists nothing, which is `$0000` (log 4). What R45 leaves unspecified is 0: DESIGN CHOICE,
unsafe (log 2, 3, 8, 20). -/
def State.reset : State where
  a := 0
  b := 0
  x := 0
  y := 0
  sp := 0
  pc := 0
  ccr := 0xD0#8
  ppage := Config.ppageReset
  mem := []
  run := .running
  requests := []
  stale := []
  draws := 0

end Sys2Proof.Machine
end

