-- ==== Sys2Proof/Machine/Flags.lean ====
section
/-! DEFINITION. The condition code register bit by bit (10_state.md R27), every flag formula of the spec (00_scope.md R15,
44_shift_rotate.md R255), and the updates the instructions make. -/

namespace Sys2Proof.Machine

/-! ### The eight bits -/

/-- A condition code byte from its bits, bit 7 to bit 0 (R27). -/
def ccrOf (s x h i n z v c : Bool) : Byte :=
  BitVec.ofBool s ++ BitVec.ofBool x ++ BitVec.ofBool h ++ BitVec.ofBool i ++ BitVec.ofBool n ++ BitVec.ofBool z
    ++ BitVec.ofBool v ++ BitVec.ofBool c

/-- CCR.S, STOP disable (R35). -/
def State.flagS (s : State) : Bool := s.ccr.getLsbD 7
/-- CCR.X, XIRQ mask (R34). -/
def State.flagX (s : State) : Bool := s.ccr.getLsbD 6
/-- CCR.H, half carry (R33). -/
def State.flagH (s : State) : Bool := s.ccr.getLsbD 5
/-- CCR.I, interrupt mask (R32). -/
def State.flagI (s : State) : Bool := s.ccr.getLsbD 4
/-- CCR.N, negative (R31). -/
def State.flagN (s : State) : Bool := s.ccr.getLsbD 3
/-- CCR.Z, zero (R30). -/
def State.flagZ (s : State) : Bool := s.ccr.getLsbD 2
/-- CCR.V, overflow (R29). -/
def State.flagV (s : State) : Bool := s.ccr.getLsbD 1
/-- CCR.C, carry or borrow (R28). -/
def State.flagC (s : State) : Bool := s.ccr.getLsbD 0

/-- Write H, N, Z, V, C. -/
def State.setHNZVC (s : State) (h n z v c : Bool) : State :=
  { s with ccr := ccrOf s.flagS s.flagX h s.flagI n z v c }
/-- Write N, Z, V, C. -/
def State.setNZVC (s : State) (n z v c : Bool) : State := s.setHNZVC s.flagH n z v c
/-- Write N, Z, V. -/
def State.setNZV (s : State) (n z v : Bool) : State := s.setNZVC n z v s.flagC
/-- Write N, Z, C. -/
def State.setNZC (s : State) (n z c : Bool) : State := s.setNZVC n z s.flagV c
/-- Write Z, V, C. -/
def State.setZVC (s : State) (z v c : Bool) : State := s.setNZVC s.flagN z v c
/-- Write Z. -/
def State.setZ (s : State) (z : Bool) : State := s.setNZVC s.flagN z s.flagV s.flagC
/-- Write V. -/
def State.setV (s : State) (v : Bool) : State := s.setNZVC s.flagN s.flagZ v s.flagC
/-- Write C. -/
def State.setC (s : State) (c : Bool) : State := s.setNZVC s.flagN s.flagZ s.flagV c
/-- Write I. -/
def State.setIMask (s : State) (i : Bool) : State :=
  { s with ccr := ccrOf s.flagS s.flagX s.flagH i s.flagN s.flagZ s.flagV s.flagC }
/-- Write X. -/
def State.setXMask (s : State) (x : Bool) : State :=
  { s with ccr := ccrOf s.flagS x s.flagH s.flagI s.flagN s.flagZ s.flagV s.flagC }

/-- A byte loaded into CCR by PULC, RTI, TFR or EXG: every bit but X, which can be cleared and not set (R34,
45_transfer_stack_store.md R273). -/
def State.loadCcr (s : State) (v : Byte) : State :=
  { s with ccr := (v &&& 0xBF#8) ||| ((v &&& s.ccr) &&& 0x40#8) }

/-- ANDCC (41_logic_compare_clear.md R165). -/
def State.andCcr (s : State) (v : Byte) : State := { s with ccr := s.ccr &&& v }

/-- ORCC: each bit but X can be set (48_lost_rows.md R459). -/
def State.orCcr (s : State) (v : Byte) : State := { s with ccr := s.ccr ||| (v &&& 0xBF#8) }

/-! ### Formulae. PRESUMED, unsafe (log 11): the spec marks them as general knowledge. -/

/-- N: the most significant bit (R15 `NZ`). -/
def isNeg {w : Nat} (r : BitVec w) : Bool := r.msb
/-- Z: the value is zero (R15 `NZ`). -/
def isZero {w : Nat} (r : BitVec w) : Bool := r == 0
/-- V of a subtraction `a - m` with result `r` (R15 `SubFlags`). -/
def subV {w : Nat} (a m r : BitVec w) : Bool := (a.msb && !m.msb && !r.msb) || (!a.msb && m.msb && r.msb)
/-- C of a subtraction: a borrow (R15 `SubFlags`). -/
def subC {w : Nat} (a m r : BitVec w) : Bool := (!a.msb && m.msb) || (m.msb && r.msb) || (r.msb && !a.msb)
/-- V of an addition `a + m` with result `r` (R15 `AddFlags`). -/
def addV {w : Nat} (a m r : BitVec w) : Bool := (a.msb && m.msb && !r.msb) || (!a.msb && !m.msb && r.msb)
/-- The carry out of bit `k` of an addition (R15 `AddFlags`: bit msb for C, bit 3 for H). -/
def addCarry {w : Nat} (k : Nat) (a m r : BitVec w) : Bool :=
  (a.getLsbD k && m.getLsbD k) || (m.getLsbD k && !r.getLsbD k) || (!r.getLsbD k && a.getLsbD k)

/-! ### Whole updates -/

/-- Flags of a logic result, a load, a store or a test: N and Z of it, V = 0 (R36). -/
def State.flagsLogic {w : Nat} (s : State) (r : BitVec w) : State := s.setNZV (isNeg r) (isZero r) false
/-- `SubFlags` (R15). -/
def State.flagsSub {w : Nat} (s : State) (a m r : BitVec w) : State :=
  s.setNZVC (isNeg r) (isZero r) (subV a m r) (subC a m r)
/-- `AddFlags_8` with H (R15). -/
def State.flagsAdd8 (s : State) (a m r : Byte) : State :=
  s.setHNZVC (addCarry 3 a m r) (isNeg r) (isZero r) (addV a m r) (addCarry 7 a m r)
/-- `AddFlags_16`: H is not written (R15, 48_lost_rows.md R408). -/
def State.flagsAdd16 (s : State) (a m r : Word) : State :=
  s.setNZVC (isNeg r) (isZero r) (addV a m r) (addCarry 15 a m r)
/-- Flags of a shift or rotate with result `r` and bit shifted out `c`: V = N xor C (44_shift_rotate.md R255). -/
def State.flagsShift {w : Nat} (s : State) (r : BitVec w) (c : Bool) : State :=
  s.setNZVC (isNeg r) (isZero r) (isNeg r ^^ c) c

end Sys2Proof.Machine
end

