-- ==== Sys2Proof/Machine/Memory.lean ====
section
/-! DEFINITION. Reading and writing one byte of memory in its canonical form. -/

namespace Sys2Proof.Machine

/-- The byte at address `n`: the listed one, else `Mem.unlisted`. -/
def Mem.read : Mem → Nat → Byte
  | [], _ => Mem.unlisted
  | c :: r, n => if c.1 = n then c.2 else Mem.read r n

/-- Memory without an entry for `n`. -/
def Mem.erase : Mem → Nat → Mem
  | [], _ => []
  | c :: r, n => if c.1 = n then Mem.erase r n else c :: Mem.erase r n

/-- Put a cell before the first cell of a higher address. -/
def Mem.insert (n : Nat) (v : Byte) : Mem → Mem
  | [] => [(n, v)]
  | c :: r => if c.1 < n then c :: Mem.insert n v r else (n, v) :: c :: r

/-- Store a byte; writing what an unlisted address reads as removes the entry. -/
def Mem.write (m : Mem) (n : Nat) (v : Byte) : Mem :=
  if v = Mem.unlisted then m.erase n else Mem.insert n v (m.erase n)

end Sys2Proof.Machine
end

