-- ==== Sys2Proof/Machine/Ops.lean ====
section
/-! DEFINITION. The named operations over memory and registers (00_scope.md R12), free values, and taking an exception and
returning from one (60_exceptions.md R503, 46_call_return_system.md R303). -/

namespace Sys2Proof.Machine

/-- What every meaning answers: a next state, a fault or a refusal. -/
abbrev Answer := Host.Outcome State Fault Refusal

/-! ### Free values (log 8) -/

/-- `k` free values have been used. -/
def State.spend (s : State) (k : Nat) : State := { s with draws := s.draws + k }

/-- A free choice between two values. -/
def pick {α : Type} (k : Nat) (p q : α) : α := if Config.freeBool k then p else q

/-- The flags selected by `mask` take free values: the spec's "?" (00_scope.md R9, 93_implementation_defined.md U1; log 9). -/
def State.freeFlags (s : State) (mask : Byte) : State :=
  { s with ccr := (s.ccr &&& ~~~mask) ||| (Config.freeByte s.draws &&& mask) }

/-! ### Memory (00_scope.md R12, 20_memory.md R53, R55, R58) -/

/-- `MemRead(addr, 1)`: the byte the address reaches under the page (R64; log 6). -/
def State.read8 (s : State) (a : Word) : Byte := s.mem.read (Config.pageMap s.ppage a)

/-- `MemRead(addr, 2)`: the high byte at `addr`, the next at `addr + 1` mod 2^16 (R53, R58). -/
def State.read16 (s : State) (a : Word) : Word := joinBytes (s.read8 a) (s.read8 (a + 1))

/-- `MemRead(addr, 4)`. -/
def State.read32 (s : State) (a : Word) : BitVec 32 := s.read16 a ++ s.read16 (a + 2)

/-- The address lies in the `QUEUE_BYTES` bytes from `pc` on (20_memory.md R69). -/
def inQueue (pc a : Word) : Bool := decide ((a - pc).toNat < Config.queueBytes)

/-- `MemWrite(addr, 1, v)`. A store into bytes the CPU may have fetched leaves the old byte possible there (R69, log 19). -/
def State.write8 (s : State) (a : Word) (v : Byte) : State :=
  { s with
    mem := s.mem.write (Config.pageMap s.ppage a) v
    stale := if inQueue s.pc a then (a.toNat, s.read8 a) :: s.stale else s.stale }

/-- `MemWrite(addr, 2, v)`: two byte accesses, ascending (R55, D4). -/
def State.write16 (s : State) (a : Word) (v : Word) : State := (s.write8 a (hiByte v)).write8 (a + 1) (loByte v)

/-- `MemWrite(addr, 4, v)`. -/
def State.write32 (s : State) (a : Word) (v : BitVec 32) : State :=
  (s.write16 a (v.extractLsb' 16 16)).write16 (a + 2) (v.extractLsb' 0 16)

/-! ### Registers -/

/-- The two accumulators as operands of one shared operation. -/
inductive Acc where
  | a
  | b
  deriving DecidableEq, Repr

/-- Read an accumulator (10_state.md R21). -/
def State.acc (s : State) : Acc → Byte
  | .a => s.a
  | .b => s.b

/-- Write an accumulator (R21). -/
def State.setAcc (s : State) (r : Acc) (v : Byte) : State :=
  match r with
  | .a => { s with a := v }
  | .b => { s with b := v }

/-- D is A:B (10_state.md R22). -/
def State.d (s : State) : Word := joinBytes s.a s.b

/-- Writing D writes A and B (R22). -/
def State.setD (s : State) (v : Word) : State := { s with a := hiByte v, b := loByte v }

/-- `Y:D` as a 32-bit value (R25). -/
def State.yd (s : State) : BitVec 32 := s.y ++ s.d

/-- Writing `Y:D` (R25). -/
def State.setYD (s : State) (v : BitVec 32) : State :=
  { s.setD (v.extractLsb' 0 16) with y := v.extractLsb' 16 16 }

/-! ### Stack (00_scope.md R12, 45_transfer_stack_store.md R287, R288) -/

/-- `Push8(v)`. -/
def State.push8 (s : State) (v : Byte) : State := { s with sp := s.sp - 1 }.write8 (s.sp - 1) v

/-- `Push16(v)`. -/
def State.push16 (s : State) (v : Word) : State := { s with sp := s.sp - 2 }.write16 (s.sp - 2) v

/-- The byte on top of the stack: what `Pull8()` returns. -/
def State.top8 (s : State) : Byte := s.read8 s.sp

/-- The word on top of the stack: what `Pull16()` returns. -/
def State.top16 (s : State) : Word := s.read16 s.sp

/-- Add `k` to SP: what a pull of `k` bytes leaves. -/
def State.drop (s : State) (k : Word) : State := { s with sp := s.sp + k }

/-! ### Change of flow -/

/-- A change of flow: PC, and the instruction queue refilled, so that no byte fetched before a store is left in it
(20_memory.md R69). -/
def State.goto (s : State) (target : Word) : State := { s with pc := target, stale := [] }

/-! ### Exceptions -/

/-- The nine-byte frame: RTN, Y, X, A, B, CCR, so that CCR lies lowest and B below A (60_exceptions.md R503, R504). -/
def State.stackFrame (s : State) (rtn : Word) : State :=
  (((((s.push16 rtn).push16 s.y).push16 s.x).push8 s.a).push8 s.b).push8 s.ccr

/-- The last lines of the entry: set I, and X if the cause is XIRQ, and load PC from the vector (R503). -/
def State.enter (s : State) (vector : Word) (setsX : Bool) : State :=
  let t := if setsX then (s.setIMask true).setXMask true else s.setIMask true
  t.goto (s.read16 vector)

/-- Taking an exception: the entry sequence of R503 with return address `rtn`. -/
def State.takeException (s : State) (vector rtn : Word) (setsX : Bool) : State :=
  (s.stackFrame rtn).enter vector setsX

/-- Returning from an exception: RTI's net effect (46_call_return_system.md R303, 60_exceptions.md R510). -/
def State.returnFromException (s : State) : State :=
  { s.loadCcr (s.read8 s.sp) with
      b := s.read8 (s.sp + 1)
      a := s.read8 (s.sp + 2)
      x := s.read16 (s.sp + 3)
      y := s.read16 (s.sp + 5)
      sp := s.sp + 9 }.goto (s.read16 (s.sp + 7))

/-- A reset through `vector` (70_reset_and_hazards.md R540): the register state becomes the reset state, nothing is
stacked, memory and the environment's requests stay. The vector is read under PPAGE_RESET, the page of the
reset state; the spec does not say under which page (20_memory.md R64). DESIGN CHOICE, unsafe on a part whose page map moves
the vectors (log 41). -/
def State.resetEntry (s : State) (vector : Word) : State :=
  let t := { State.reset with mem := s.mem, requests := s.requests, draws := s.draws }
  { t with pc := t.read16 vector }

end Sys2Proof.Machine
end

