-- ==== Sys2Proof/Machine/Operands.lean ====
section
/-! DEFINITION. Every operand form: effective addresses, the register updates that go with them, and operand values
(30_encoding.md R85 to R101, 00_scope.md R13). `ea` is the address and `update` the side effect of `ResolveOperand`. The
argument `pcb` is the value PC has as a base register: `PCnext`, or a free word where bytes follow the postbyte group. -/

namespace Sys2Proof.Machine

/-- The value of a base register (R92, R100). -/
def baseVal (s : State) (pcb : Word) : Base → Word
  | .x => s.x
  | .y => s.y
  | .sp => s.sp
  | .pc => pcb

/-- The value of an auto register (R94). -/
def autoVal (s : State) : AutoReg → Word
  | .x => s.x
  | .y => s.y
  | .sp => s.sp

/-- Write an auto register (R94). -/
def setAuto (s : State) (r : AutoReg) (v : Word) : State :=
  match r with
  | .x => { s with x := v }
  | .y => { s with y := v }
  | .sp => { s with sp := v }

/-- `adj` of R94: codes 0 to 7 give +1 to +8, codes 8 to 15 give -8 to -1. -/
def autoAdj (n : BitVec 4) : Word := if n.msb then n.signExtend 16 else n.zeroExtend 16 + 1

/-- An accumulator offset: A and B are unsigned (R95). -/
def accVal (s : State) : AccOff → Word
  | .a => s.a.zeroExtend 16
  | .b => s.b.zeroExtend 16
  | .d => s.d

/-- The pointer's address of the two indirect forms (R98, R99); the other forms have none and answer 0. -/
def idxPtr (s : State) (pcb : Word) : Idx → Word
  | .indD r => baseVal s pcb r + s.d
  | .ind16 r n => baseVal s pcb r + n
  | .off5 _ _ | .auto _ _ _ | .acc _ _ | .off9 _ _ | .off16 _ _ => 0

/-- The effective address of an indexed operand (R93 to R99). -/
def idxEa (s : State) (pcb : Word) : Idx → Word
  | .off5 r n => baseVal s pcb r + n.signExtend 16
  | .auto r post n => if post then autoVal s r else autoVal s r + autoAdj n
  | .acc r o => baseVal s pcb r + accVal s o
  | .off9 r n => baseVal s pcb r + n.signExtend 16
  | .off16 r n => baseVal s pcb r + n
  | .indD r => s.read16 (idxPtr s pcb (.indD r))
  | .ind16 r n => s.read16 (idxPtr s pcb (.ind16 r n))

/-- The register update of an indexed operand: only the auto forms make one (R94). -/
def idxUpdate (s : State) : Idx → State
  | .auto r _ n => setAuto s r (autoVal s r + autoAdj n)
  | .off5 _ _ | .acc _ _ | .off9 _ _ | .off16 _ _ | .indD _ | .ind16 _ _ => s

/-- The auto register an indexed operand updates, if any (R94). -/
def idxAuto : Idx → Option AutoReg
  | .auto r _ _ => some r
  | .off5 _ _ | .acc _ _ | .off9 _ _ | .off16 _ _ | .indD _ | .ind16 _ _ => none

/-- The auto register an indexed operand updates after its address is taken, if any (R94). -/
def idxPostAuto : Idx → Option AutoReg
  | .auto r post _ => if post then some r else none
  | .off5 _ _ | .acc _ _ | .off9 _ _ | .off16 _ _ | .indD _ | .ind16 _ _ => none

/-- The indexed operand has PC as its base (R100). -/
def idxUsesPc : Idx → Bool
  | .off5 r _ | .acc r _ | .off9 r _ | .off16 r _ | .indD r | .ind16 r _ => r == .pc
  | .auto _ _ _ => false

/-- The effective address of a memory operand (R87, R88, R101). -/
def addrEa (s : State) (pcb : Word) : Addr → Word
  | .dir dd => dd.zeroExtend 16
  | .ext a => a
  | .idx i => idxEa s pcb i

/-- The register update of a memory operand. -/
def addrUpdate (s : State) : Addr → State
  | .idx i => idxUpdate s i
  | .dir _ | .ext _ => s

/-- The auto register a memory operand updates, if any. -/
def addrAuto : Addr → Option AutoReg
  | .idx i => idxAuto i
  | .dir _ | .ext _ => none

/-- The memory operand has PC as its base (R100). -/
def addrUsesPc : Addr → Bool
  | .idx i => idxUsesPc i
  | .dir _ | .ext _ => false

/-! ### PC as base where bytes follow the postbyte group (R100, D13; log 13) -/

/-- The base PC gives in a row with trailing bytes: a free word, since the spec does not know it. -/
def trailingPc (s : State) (usesPc : Bool) : Word := if usesPc then Config.freeWord s.draws else s.pc

/-- The free word of `trailingPc` is used up. -/
def trailingSpend (s : State) (usesPc : Bool) : State := if usesPc then s.spend 1 else s

/-- The effective address in a row with trailing bytes. -/
def trailingEa (s : State) (m : Addr) : Word := addrEa s (trailingPc s (addrUsesPc m)) m

/-- The state after the address of a row with trailing bytes is resolved. -/
def trailingUpdate (s : State) (m : Addr) : State := addrUpdate (trailingSpend s (addrUsesPc m)) m

/-! ### Operand values -/

/-- An 8-bit source operand (R85, 41_logic_compare_clear.md R160). -/
def src8Val (s : State) : Src8 → Byte
  | .imm ii => ii
  | .mem m => s.read8 (addrEa s s.pc m)

/-- A 16-bit source operand (R86). -/
def src16Val (s : State) : Src16 → Word
  | .imm w => w
  | .mem m => s.read16 (addrEa s s.pc m)

/-- The register update of an 8-bit source operand. -/
def src8Update (s : State) : Src8 → State
  | .imm _ => s
  | .mem m => addrUpdate s m

/-- The register update of a 16-bit source operand. -/
def src16Update (s : State) : Src16 → State
  | .imm _ => s
  | .mem m => addrUpdate s m

/-- The auto register a 16-bit source operand updates, if any. -/
def src16Auto : Src16 → Option AutoReg
  | .imm _ => none
  | .mem m => addrAuto m

/-! ### One register used twice in one instruction (70_reset_and_hazards.md R547; log 14, 15) -/

/-- The value of register `r` that an instruction uses which also auto-modifies `auto`: where it is the same register,
the old or the updated value, a free choice; else its value. -/
def hazardVal (s t : State) (r : AutoReg) (auto : Option AutoReg) : Word :=
  if auto = some r then pick s.draws (autoVal s r) (autoVal t r) else autoVal s r

/-- The value `v` written to a register `r` that the instruction also auto-modifies to its value in `t`: one of the two
writes comes last, a free choice. -/
def hazardWrite (s t : State) (r : AutoReg) (auto : Option AutoReg) (v : Word) : Word :=
  if auto = some r then pick s.draws v (autoVal t r) else v

/-- The free choice of `hazardVal` or `hazardWrite` is used up. -/
def hazardSpend (t : State) (r : AutoReg) (auto : Option AutoReg) : State :=
  if auto = some r then t.spend 1 else t

end Sys2Proof.Machine
end

