-- ==== Sys2Proof/Machine/Branch.lean ====
section
/-! DEFINITION. Short and long branches, bit-test branches and loop primitives (40_branch.md; BEQ BGE BGT BHI LBxx DBxx TBxx
of 48_lost_rows.md). On entry PC is `PCnext`. -/

namespace Sys2Proof.Machine

/-- A relative branch: to `PCnext + off` when the condition holds, a change of flow even where that is `PCnext` (40_branch.md
R130, 30_encoding.md R89 to R91). -/
def branchIf (s : State) (c : Bool) (off : Word) : State := if c then s.goto (s.pc + off) else s

/-- A short branch: the offset is `sext_8(rr)` (R89, R130). -/
def shortBranch (s : State) (c : Bool) (rr : Byte) : Answer := .next (branchIf s c (rr.signExtend 16))

/-- A long branch: the offset is the 16-bit `qq:rr` (R91, 48_lost_rows.md R431). -/
def longBranch (s : State) (c : Bool) (qqrr : Word) : Answer := .next (branchIf s c qqrr)

/-! ### Conditions -/

/-- C = 0: higher or same, unsigned (R131). -/
def condHs (s : State) : Bool := !s.flagC
/-- C = 1: lower, unsigned (R133). -/
def condLo (s : State) : Bool := s.flagC
/-- C + Z = 1: lower or same, unsigned (R134). -/
def condLs (s : State) : Bool := s.flagC || s.flagZ
/-- C + Z = 0: higher, unsigned (R421). -/
def condHi (s : State) : Bool := !(s.flagC || s.flagZ)
/-- N xor V = 1: less than, signed (R135). -/
def condLt (s : State) : Bool := s.flagN ^^ s.flagV
/-- N xor V = 0: greater than or equal, signed (R418). -/
def condGe (s : State) : Bool := !(s.flagN ^^ s.flagV)
/-- Z + (N xor V) = 1: less than or equal, signed (R132). -/
def condLe (s : State) : Bool := s.flagZ || (s.flagN ^^ s.flagV)
/-- Z + (N xor V) = 0: greater than, signed (R420). -/
def condGt (s : State) : Bool := !(s.flagZ || (s.flagN ^^ s.flagV))

/-! ### Short branches -/

/-- BRA (R139). -/
def execBra (rr : Byte) (s : State) : Answer := shortBranch s true rr
/-- BRN (R141). -/
def execBrn (rr : Byte) (s : State) : Answer := shortBranch s false rr
/-- BLS (R134). -/
def execBls (rr : Byte) (s : State) : Answer := shortBranch s (condLs s) rr
/-- BHS (R131). -/
def execBhs (rr : Byte) (s : State) : Answer := shortBranch s (condHs s) rr
/-- BCC, the same function as BHS (R131, R415). -/
def execBcc (rr : Byte) (s : State) : Answer := shortBranch s (condHs s) rr
/-- BLO (R133). -/
def execBlo (rr : Byte) (s : State) : Answer := shortBranch s (condLo s) rr
/-- BCS, the same function as BLO (R133, R415). -/
def execBcs (rr : Byte) (s : State) : Answer := shortBranch s (condLo s) rr
/-- BNE (R137). -/
def execBne (rr : Byte) (s : State) : Answer := shortBranch s (!s.flagZ) rr
/-- BEQ (R417). -/
def execBeq (rr : Byte) (s : State) : Answer := shortBranch s s.flagZ rr
/-- BVC (R144). -/
def execBvc (rr : Byte) (s : State) : Answer := shortBranch s (!s.flagV) rr
/-- BVS (R145). -/
def execBvs (rr : Byte) (s : State) : Answer := shortBranch s s.flagV rr
/-- BPL (R138). -/
def execBpl (rr : Byte) (s : State) : Answer := shortBranch s (!s.flagN) rr
/-- BMI (R136). -/
def execBmi (rr : Byte) (s : State) : Answer := shortBranch s s.flagN rr
/-- BLT (R135). -/
def execBlt (rr : Byte) (s : State) : Answer := shortBranch s (condLt s) rr
/-- BLE (R132). -/
def execBle (rr : Byte) (s : State) : Answer := shortBranch s (condLe s) rr
/-- BGE (R418). -/
def execBge (rr : Byte) (s : State) : Answer := shortBranch s (condGe s) rr
/-- BGT (R420). -/
def execBgt (rr : Byte) (s : State) : Answer := shortBranch s (condGt s) rr
/-- BHI (R421). -/
def execBhi (rr : Byte) (s : State) : Answer := shortBranch s (condHi s) rr

/-! ### Long branches (R431) -/

/-- LBRA (R431). -/
def execLbra (w : Word) (s : State) : Answer := longBranch s true w
/-- LBRN (R431). -/
def execLbrn (w : Word) (s : State) : Answer := longBranch s false w
/-- LBHI (R431). -/
def execLbhi (w : Word) (s : State) : Answer := longBranch s (condHi s) w
/-- LBLS (R431). -/
def execLbls (w : Word) (s : State) : Answer := longBranch s (condLs s) w
/-- LBCC (R431). -/
def execLbcc (w : Word) (s : State) : Answer := longBranch s (condHs s) w
/-- LBHS, another name of LBCC (R431). -/
def execLbhs (w : Word) (s : State) : Answer := longBranch s (condHs s) w
/-- LBCS (R431). -/
def execLbcs (w : Word) (s : State) : Answer := longBranch s (condLo s) w
/-- LBLO, another name of LBCS (R431). -/
def execLblo (w : Word) (s : State) : Answer := longBranch s (condLo s) w
/-- LBNE (R431). -/
def execLbne (w : Word) (s : State) : Answer := longBranch s (!s.flagZ) w
/-- LBEQ (R431). -/
def execLbeq (w : Word) (s : State) : Answer := longBranch s s.flagZ w
/-- LBVC (R431). -/
def execLbvc (w : Word) (s : State) : Answer := longBranch s (!s.flagV) w
/-- LBVS (R431). -/
def execLbvs (w : Word) (s : State) : Answer := longBranch s s.flagV w
/-- LBPL (R431). -/
def execLbpl (w : Word) (s : State) : Answer := longBranch s (!s.flagN) w
/-- LBMI (R431). -/
def execLbmi (w : Word) (s : State) : Answer := longBranch s s.flagN w
/-- LBGE (R431). -/
def execLbge (w : Word) (s : State) : Answer := longBranch s (condGe s) w
/-- LBLT (R431). -/
def execLblt (w : Word) (s : State) : Answer := longBranch s (condLt s) w
/-- LBGT (R431). -/
def execLbgt (w : Word) (s : State) : Answer := longBranch s (condGt s) w
/-- LBLE (R431). -/
def execLble (w : Word) (s : State) : Answer := longBranch s (condLe s) w

/-! ### Bit-test branches -/

/-- BRCLR: branch if every selected bit is 0; the index update happens either way (R140, 30_encoding.md R94). -/
def execBrclr (m : Addr) (mm rr : Byte) (s : State) : Answer :=
  shortBranch (trailingUpdate s m) (s.read8 (trailingEa s m) &&& mm == 0) rr

/-- BRSET: branch if every selected bit is 1 (R142, 90_conflicts.md C3). -/
def execBrset (m : Addr) (mm rr : Byte) (s : State) : Answer :=
  shortBranch (trailingUpdate s m) (~~~s.read8 (trailingEa s m) &&& mm == 0) rr

/-! ### Loop primitives (R146) -/

/-- Add `d` to the counter, modulo its width (R146). -/
def cntrAdd (s : State) (d : Word) : Cntr → State
  | .a => { s with a := s.a + d.truncate 8 }
  | .b => { s with b := s.b + d.truncate 8 }
  | .d => s.setD (s.d + d)
  | .x => { s with x := s.x + d }
  | .y => { s with y := s.y + d }
  | .sp => { s with sp := s.sp + d }

/-- The counter is zero. -/
def cntrIsZero (s : State) : Cntr → Bool
  | .a => s.a == 0
  | .b => s.b == 0
  | .d => s.d == 0
  | .x => s.x == 0
  | .y => s.y == 0
  | .sp => s.sp == 0

/-- The loop primitive: the counter is updated, then tested; no flag is written (R146). -/
def loopPrimitive (s : State) (c : Cntr) (d : Word) (onZero : Bool) (off : BitVec 9) : Answer :=
  .next (branchIf (cntrAdd s d c) (cntrIsZero (cntrAdd s d c) c == onZero) (off.signExtend 16))

/-- IBEQ (R147). -/
def execIbeq (c : Cntr) (off : BitVec 9) (s : State) : Answer := loopPrimitive s c 1 true off
/-- IBNE (R148). -/
def execIbne (c : Cntr) (off : BitVec 9) (s : State) : Answer := loopPrimitive s c 1 false off
/-- DBEQ (R430). -/
def execDbeq (c : Cntr) (off : BitVec 9) (s : State) : Answer := loopPrimitive s c (-1) true off
/-- DBNE (R432). -/
def execDbne (c : Cntr) (off : BitVec 9) (s : State) : Answer := loopPrimitive s c (-1) false off
/-- TBEQ: the counter is not changed (R473). -/
def execTbeq (c : Cntr) (off : BitVec 9) (s : State) : Answer := loopPrimitive s c 0 true off
/-- TBNE: the counter is not changed (R474). -/
def execTbne (c : Cntr) (off : BitVec 9) (s : State) : Answer := loopPrimitive s c 0 false off

end Sys2Proof.Machine
end

