-- ==== Sys2Proof/Machine/Control.lean ====
section
/-! DEFINITION. Jumps, calls, returns, traps, wait and stop (46_call_return_system.md; BSR 40_branch.md R143; BGND JMP JSR NOP
SWI of 48_lost_rows.md). RTN is PC on entry (R308). -/

namespace Sys2Proof.Machine

/-! ### Shared operations -/

/-- The state in which a call pushes, after its target is resolved: where the operand auto-modifies SP, the pushes start at
the old or the new SP, a free choice (R300, R547, D30; log 16). -/
def linkState (s t : State) (auto : Option AutoReg) : State :=
  { hazardSpend t .sp auto with sp := hazardVal s t .sp auto }

/-- Push the return address (R308); `t` is the state after the target is resolved. SP ends two below its value there. -/
def linkShort (s t : State) (auto : Option AutoReg) : State :=
  { (linkState s t auto).push16 s.pc with sp := t.sp - 2 }

/-- Push the return address, then the old page (R300). SP ends three below its value in `t`. -/
def linkFar (s t : State) (auto : Option AutoReg) : State :=
  { ((linkState s t auto).push16 s.pc).push8 s.ppage with sp := t.sp - 3 }

/-! ### Jumps and calls -/

/-- JMP (R439). -/
def execJmp (m : Addr) (s : State) : Answer := .next ((addrUpdate s m).goto (addrEa s s.pc m))

/-- BSR (40_branch.md R143). -/
def execBsr (rr : Byte) (s : State) : Answer := .next ((s.push16 s.pc).goto (s.pc + rr.signExtend 16))

/-- JSR: the address is formed before the push (R440; log 30). -/
def execJsr (m : Addr) (s : State) : Answer :=
  .next ((linkShort s (addrUpdate s m) (addrAuto m)).goto (addrEa s s.pc m))

/-- CALL: the direct forms take the page from the instruction (R300), the indirect ones target and page from the three bytes
at the pointer (R301; log 37). -/
def execCall (dest : CallTo) (s : State) : Answer :=
  match dest with
  | .ext hhll pg => .next ({ linkFar s s none with ppage := pg }.goto hhll)
  | .idx i pg =>
    .next ({ linkFar s (trailingUpdate s (.idx i)) (idxAuto i) with ppage := pg }.goto (trailingEa s (.idx i)))
  | .ind i =>
    let ptr := idxPtr s s.pc i
    .next ({ linkFar s s none with ppage := s.read8 (ptr + 2) }.goto (s.read16 ptr))

/-! ### Returns -/

/-- RTS (R304). -/
def execRts (s : State) : Answer := .next ((s.drop 2).goto s.top16)

/-- RTC: the page, then the address, which is pulled under the page just pulled (R302, 20_memory.md R60). -/
def execRtc (s : State) : Answer :=
  let t := { s with ppage := s.top8 }
  .next ((t.drop 3).goto (t.read16 (s.sp + 1)))

/-- RTI (R303). -/
def execRti (s : State) : Answer := .next s.returnFromException

/-! ### Exceptions, wait, stop -/

/-- TRAP: the trap number is stored nowhere (R306). -/
def execTrap (_tn : Byte) (s : State) : Answer := .next (s.takeException Config.vecTrap s.pc false)

/-- SWI (R468). -/
def execSwi (s : State) : Answer := .next (s.takeException Config.vecSwi s.pc false)

/-- BGND: background mode is not part of the model, so it acts like a software interrupt through a debug vector: the frame is
stacked and the vector taken, but no flag is written, I included (R419, 60_exceptions.md R519; log 29). -/
def execBgnd (s : State) : Answer :=
  let t := s.stackFrame s.pc
  .next (t.goto (t.read16 Config.vecBgnd))

/-- WAI: stack the registers and wait (R307). -/
def execWai (s : State) : Answer := .next { s.stackFrame s.pc with run := .waiting }

/-- STOP: with S = 1 nothing, else stack the registers and stop (R305). -/
def execStop (s : State) : Answer :=
  if s.flagS then .next s else .next { s.stackFrame s.pc with run := .stopped }

/-- NOP (R456). -/
def execNop (s : State) : Answer := .next s

end Sys2Proof.Machine
end

