-- ==== Sys2Proof/Machine/Interrupts.lean ====
section
/-! DEFINITION. Requests, masks, priority, delivery and waking (60_exceptions.md R505 to R509, R514, R515). -/

namespace Sys2Proof.Machine

/-- A request the masks let through (R505, R506, R509). The clock monitor and the COP are resets and not masked (R507). -/
def enabled (s : State) : IntSource → Bool
  | .reset | .clockMonitor | .cop => true
  | .xirq => !s.flagX
  | .irq | .peripheral _ => !s.flagI

/-- `cand` of R509. -/
def candidates (s : State) : List IntSource := s.requests.filter (enabled s)

/-- `VEC(src)` (R507; log 7). -/
def vectorOf : IntSource → Word
  | .reset => Config.vecReset
  | .clockMonitor => Config.vecClockMonitor
  | .cop => Config.vecCop
  | .xirq => Config.vecXirq
  | .irq => Config.vecIrq
  | .peripheral v => v

/-- Priority, higher is served first; peripherals by vector address (R508; log 21). PRESUMED, unsafe. -/
def rank : IntSource → Nat
  | .reset => 0x10004
  | .clockMonitor => 0x10003
  | .cop => 0x10002
  | .xirq => 0x10001
  | .irq => 0x10000
  | .peripheral v => v.toNat

/-- The member of highest priority of `src :: rest` (R508). -/
def highest (src : IntSource) : List IntSource → IntSource
  | [] => src
  | r :: rest => highest (if rank src < rank r then r else src) rest

/-- The source starts the machine again instead of interrupting it (R507). -/
def isReset : IntSource → Bool
  | .reset | .clockMonitor | .cop => true
  | .xirq | .irq | .peripheral _ => false

/-- `Interrupt(src)`: the entry of R503 with return address `rtn`, or a reset (70_reset_and_hazards.md R540). -/
def deliver (src : IntSource) (rtn : Word) (s : State) : State :=
  if isReset src then s.resetEntry (vectorOf src) else s.takeException (vectorOf src) rtn (src == .xirq)

/-- Leaving WAITING or STOPPED by `src`: the frame is on the stack already (R514). -/
def wake (src : IntSource) (s : State) : State :=
  if isReset src then s.resetEntry (vectorOf src)
  else { s.enter (vectorOf src) (src == .xirq) with run := .running }

end Sys2Proof.Machine
end

