-- ==== Sys2Proof/Machine/Fuzzy.lean ====
section
/-! DEFINITION. The fuzzy-logic instructions (47_fuzzy.md). REV and REVW do one list element per step and stay at their own
first byte, two below PC on entry, until the terminator (R325). -/

namespace Sys2Proof.Machine

/-! ### MEM (R320) -/

/-- One term of the grade: distance times slope, at most `$FF`; a slope of `$00` is a vertical side (D11; log 26). -/
def memTerm (dist slope : Nat) : Nat :=
  if slope = 0 ∧ Config.memSpecial = true then 0xFF else min (dist * slope) 0xFF

/-- The grade of input `a` in the trapezoid (p1, p2, s1, s2). -/
def memGrade (a p1 p2 s1 s2 : Nat) : Nat :=
  if a < p1 ∨ p2 < a then 0 else min (memTerm (a - p1) s1) (memTerm (p2 - a) s2)

/-- MEM: H, N, Z, V and C undefined (R320). -/
def execMem (s : State) : Answer :=
  let mu := memGrade s.a.toNat (s.read8 s.x).toNat (s.read8 (s.x + 1)).toNat (s.read8 (s.x + 2)).toNat
    (s.read8 (s.x + 3)).toNat
  let t := ((s.freeFlags 0x2F#8).spend 1).write8 s.y (BitVec.ofNat 8 mu)
  .next { t with x := s.x + 4, y := s.y + 1 }

/-! ### REV and REVW (R321, R322) -/

/-- The lesser of two unsigned bytes (R321). -/
def minByte (p q : Byte) : Byte := if q.ult p then q else p

/-- A rule output: store the running minimum unless the output is larger already (R321, R322). -/
def ruleOutput (s t : State) (ea : Word) : State := if (s.read8 ea).ult s.a then t.write8 ea s.a else t

/-- REV, one element: V as the algorithm leaves it; H, N, Z, C undefined (R321, 90_conflicts.md C8; log 25). -/
def execRev (s : State) : Answer :=
  let e := s.read8 s.x
  let ea := s.y + e.zeroExtend 16
  let t := { (s.freeFlags 0x2D#8).spend 1 with x := s.x + 1 }
  if e = 0xFF#8 then .next t
  else if e = 0xFE#8 then
    .next { t.setV (!s.flagV) with a := if s.flagV then 0xFF#8 else s.a, pc := s.pc - 2 }
  else if s.flagV then .next { ruleOutput s t ea with pc := s.pc - 2 }
  else .next { t with a := minByte s.a (s.read8 ea), pc := s.pc - 2 }

/-- The weighted minimum: A times (w + 1) / 256 (R322). PRESUMED, unsafe (log 25). -/
def weigh (a w : Byte) : Byte := BitVec.ofNat 8 (a.toNat * (w.toNat + 1) / 256)

/-- REVW, one element: V as the algorithm leaves it, C selects weights and is kept; H, N, Z undefined (R322). -/
def execRevw (s : State) : Answer :=
  let e := s.read16 s.x
  let t := { (s.freeFlags 0x2C#8).spend 1 with x := s.x + 2 }
  if e = 0xFFFF#16 then .next t
  else if e = 0xFFFE#16 then
    let u := { t.setV (!s.flagV) with pc := s.pc - 2 }
    if s.flagV then .next { u with a := 0xFF#8 }
    else if s.flagC then .next { u with a := weigh s.a (s.read8 s.y), y := s.y + 1 }
    else .next u
  else if s.flagV then .next { ruleOutput s t e with pc := s.pc - 2 }
  else .next { t with a := minByte s.a (s.read8 e), pc := s.pc - 2 }

/-! ### WAV and wavr (R323, R324) -/

/-- The sum of products over the first `n` elements, on top of `acc`. -/
def wavProducts (s : State) (acc : BitVec 32) : Nat → BitVec 32
  | 0 => acc
  | n + 1 =>
    wavProducts s acc n
      + (s.read8 (s.x + BitVec.ofNat 16 n)).zeroExtend 32 * (s.read8 (s.y + BitVec.ofNat 16 n)).zeroExtend 32

/-- The sum of weights over the first `n` elements, on top of `acc`. -/
def wavWeights (s : State) (acc : Word) : Nat → Word
  | 0 => acc
  | n + 1 => wavWeights s acc n + (s.read8 (s.y + BitVec.ofNat 16 n)).zeroExtend 16

/-- A WAV that runs to its end: H, N, V and C undefined, Z = 1. With no element left (B = 0) nothing is stated, and the results
and Z are free too (R323, U9; log 24). -/
def wavFinish (sop : BitVec 32) (sow : Word) (s : State) : State :=
  let t := (s.freeFlags 0x2F#8).spend 3
  let n := s.b.toNat
  if n = 0 then
    { t.setYD (Config.freeWord s.draws ++ Config.freeWord (s.draws + 1)) with x := Config.freeWord (s.draws + 2) }
  else { (t.setYD (wavProducts s sop n)).setZ true with x := wavWeights s sow n }

/-- The six extra bytes of a WAV interrupted with partial sums `sop` and `sow` (R325; log 24). -/
def wavPush (sop : BitVec 32) (sow : Word) (s : State) : State :=
  let w := Config.wavLayout (sop ++ sow)
  ((s.push16 (w.extractLsb' 0 16)).push16 (w.extractLsb' 16 16)).push16 (w.extractLsb' 32 16)

/-- A WAV interrupted by `src` after `k` elements: the counter and the pointers stand after them, the partial sums are stacked,
and RTN is the address of the `3C` byte, so that RTI lands on wavr (R325; log 24). -/
def wavSplit (src : IntSource) (k : Nat) (sop : BitVec 32) (sow : Word) (s : State) : State :=
  let t := wavPush (wavProducts s sop k) (wavWeights s sow k) ((s.freeFlags 0x2F#8).spend 1)
  deliver src (s.pc - 1)
    { t with x := s.x + BitVec.ofNat 16 k, y := s.y + BitVec.ofNat 16 k, b := s.b - BitVec.ofNat 8 k }

/-- WAV from partial sums: it completes, or, where an enabled request stands, it may be split after fewer than B elements, a free
choice (R325; log 24). A reset abandons it. With B = 0 the spec states no split (R323): it may be split after any number `k` of
elements, which stacks the sums over those `k` and leaves B = -k, the model's choice (DESIGN CHOICE, unsafe; log 24). -/
def wavRun (sop : BitVec 32) (sow : Word) (s : State) : Answer :=
  match candidates s with
  | [] => .next (wavFinish sop sow s)
  | c :: cs =>
    if Config.freeBool s.draws then .next (wavFinish sop sow s)
    else
      let src := highest c cs
      if isReset src then .next (deliver src (s.pc - 1) (s.spend 1))
      else .next (wavSplit src (Config.freeIndex s.draws % s.b.toNat) sop sow s)

/-- WAV (R323). -/
def execWav (s : State) : Answer := wavRun 0 0 s

/-- The partial sums in the six bytes at SP (R324; log 24). -/
def wavPulled (s : State) : BitVec 48 :=
  Config.wavLayout.symm (s.read16 s.sp ++ s.read16 (s.sp + 2) ++ s.read16 (s.sp + 4))

/-- wavr: pull the partial sums and go on (R324). -/
def execWavr (s : State) : Answer :=
  wavRun ((wavPulled s).extractLsb' 16 32) ((wavPulled s).extractLsb' 0 16) (s.drop 6)

end Sys2Proof.Machine
end

