-- ==== Sys2Proof/Machine/LoadStore.lean ====
section
/-! DEFINITION. Loads, stores, moves, push and pull (45_transfer_stack_store.md R265 to R279, R287 to R289; LDAA LDAB LDD LDS LDX
LDY MOVB MOVW STAA STAB STD of 48_lost_rows.md). -/

namespace Sys2Proof.Machine

/-! ### Shared operations -/

/-- Load an accumulator: N and Z of the value, V = 0 (R441, R442). -/
def loadAcc (r : Acc) (o : Src8) (s : State) : Answer :=
  let v := src8Val s o
  .next (((src8Update s o).setAcc r v).flagsLogic v)

/-- Load X, Y or SP. Where the operand auto-modifies the same register, one of the two writes comes last, a free choice
(R444 to R446, R547; log 14). -/
def loadAuto (r : AutoReg) (o : Src16) (s : State) : Answer :=
  let v := src16Val s o
  let t := src16Update s o
  .next ((setAuto (hazardSpend t r (src16Auto o)) r (hazardWrite s t r (src16Auto o) v)).flagsLogic v)

/-- Store an accumulator (R464, R465). -/
def storeAcc (r : Acc) (m : Addr) (s : State) : Answer :=
  .next (((addrUpdate s m).write8 (addrEa s s.pc m) (s.acc r)).flagsLogic (s.acc r))

/-- Store X, Y or SP. Where the operand auto-modifies the same register, the old or the new value is stored, a free choice
(R289, R547, D31; log 15). -/
def storeAuto (r : AutoReg) (m : Addr) (s : State) : Answer :=
  let t := addrUpdate s m
  let v := hazardVal s t r (addrAuto m)
  .next (((hazardSpend t r (addrAuto m)).write16 (addrEa s s.pc m) v).flagsLogic v)

/-! ### Loads and stores -/

/-- LDAA (R441). -/
def execLdaa (o : Src8) (s : State) : Answer := loadAcc .a o s
/-- LDAB (R442). -/
def execLdab (o : Src8) (s : State) : Answer := loadAcc .b o s
/-- LDD (R443). -/
def execLdd (o : Src16) (s : State) : Answer :=
  let v := src16Val s o
  .next (((src16Update s o).setD v).flagsLogic v)
/-- LDS (R444). -/
def execLds (o : Src16) (s : State) : Answer := loadAuto .sp o s
/-- LDX (R445). -/
def execLdx (o : Src16) (s : State) : Answer := loadAuto .x o s
/-- LDY (R446). -/
def execLdy (o : Src16) (s : State) : Answer := loadAuto .y o s
/-- STAA (R464). -/
def execStaa (m : Addr) (s : State) : Answer := storeAcc .a m s
/-- STAB (R465). -/
def execStab (m : Addr) (s : State) : Answer := storeAcc .b m s
/-- STD (R466). -/
def execStd (m : Addr) (s : State) : Answer :=
  .next (((addrUpdate s m).write16 (addrEa s s.pc m) s.d).flagsLogic s.d)
/-- STS (R277). -/
def execSts (m : Addr) (s : State) : Answer := storeAuto .sp m s
/-- STX (R278). -/
def execStx (m : Addr) (s : State) : Answer := storeAuto .x m s
/-- STY (R279). -/
def execSty (m : Addr) (s : State) : Answer := storeAuto .y m s

/-! ### Moves (R450, R451). The source operand is resolved and read first, then the destination is resolved (log 30). -/

/-- The PC base of a move's source: other bytes always follow it (30_encoding.md R100; log 13). -/
def moveSrcEa (s : State) (m : Addr) : Word := trailingEa s m

/-- An indexed source, so that the destination's bytes are the last of the instruction. -/
def isIdx : Addr → Bool
  | .idx _ => true
  | .dir _ | .ext _ => false

/-- PC as the destination's base is free unless the source is indexed: only then no byte follows the postbyte (R100; log 13). -/
def moveDstFree (srcIdx : Bool) (m : Addr) : Bool := addrUsesPc m && !srcIdx

/-- The destination address of a move, in the state after the source is resolved. -/
def moveDstEa (s : State) (srcIdx : Bool) (m : Addr) : Word := addrEa s (trailingPc s (moveDstFree srcIdx m)) m

/-- The state after the destination of a move is resolved. -/
def moveDstUpdate (s : State) (srcIdx : Bool) (m : Addr) : State := addrUpdate (trailingSpend s (moveDstFree srcIdx m)) m

/-- MOVB: copy one byte; no flag (R450). -/
def execMovb (src : Src8) (dst : Addr) (s : State) : Answer :=
  match src with
  | .imm v => .next ((moveDstUpdate s false dst).write8 (moveDstEa s false dst) v)
  | .mem m =>
    let t := trailingUpdate s m
    .next ((moveDstUpdate t (isIdx m) dst).write8 (moveDstEa t (isIdx m) dst) (s.read8 (moveSrcEa s m)))

/-- MOVW: copy one word; no flag (R451). -/
def execMovw (src : Src16) (dst : Addr) (s : State) : Answer :=
  match src with
  | .imm v => .next ((moveDstUpdate s false dst).write16 (moveDstEa s false dst) v)
  | .mem m =>
    let t := trailingUpdate s m
    .next ((moveDstUpdate t (isIdx m) dst).write16 (moveDstEa t (isIdx m) dst) (s.read16 (moveSrcEa s m)))

/-! ### Push (R287) -/

/-- PSHA (R265). -/
def execPsha (s : State) : Answer := .next (s.push8 s.a)
/-- PSHB (R266). -/
def execPshb (s : State) : Answer := .next (s.push8 s.b)
/-- PSHC (R267). -/
def execPshc (s : State) : Answer := .next (s.push8 s.ccr)
/-- PSHD (R268). -/
def execPshd (s : State) : Answer := .next (s.push16 s.d)
/-- PSHX (R269). -/
def execPshx (s : State) : Answer := .next (s.push16 s.x)
/-- PSHY (R270). -/
def execPshy (s : State) : Answer := .next (s.push16 s.y)

/-! ### Pull (R288) -/

/-- PULA (R271). -/
def execPula (s : State) : Answer := .next { s.drop 1 with a := s.top8 }
/-- PULB (R272). -/
def execPulb (s : State) : Answer := .next { s.drop 1 with b := s.top8 }
/-- PULC: every bit from the stack but X, which can only be cleared (R273). -/
def execPulc (s : State) : Answer := .next ((s.drop 1).loadCcr s.top8)
/-- PULD (R274). -/
def execPuld (s : State) : Answer := .next ((s.drop 2).setD s.top16)
/-- PULX (R275). -/
def execPulx (s : State) : Answer := .next { s.drop 2 with x := s.top16 }
/-- PULY (R276). -/
def execPuly (s : State) : Answer := .next { s.drop 2 with y := s.top16 }

end Sys2Proof.Machine
end

