-- ==== Sys2Proof/Machine/Access.lean ====
section
/-! DEFINITION. The memory bytes an instruction, an exception entry or a wake-up reads and writes, and the refusal of an access
that `IoRegion`, `Mapped` or `Writable` rules out (00_scope.md R6, 20_memory.md R62, R65; log 5). -/

namespace Sys2Proof.Machine

/-- One access to a byte of memory. -/
inductive Access where
  | read (addr : Word)
  | write (addr : Word)
  deriving DecidableEq, Repr

/-- Why an access is refused, if it is (R62, R65, D6). -/
def Access.denial : Access → Option Refusal
  | .read a =>
    if Config.ioRegion a then some (.ioRegion a) else if !Config.mapped a then some (.unmapped a) else none
  | .write a =>
    if Config.ioRegion a then some (.ioRegion a) else if !Config.mapped a then some (.unmapped a)
    else if !Config.writable a then some (.notWritable a) else none

/-- The refusal of the first access of a list that is refused. -/
def firstDenial : List Access → Option Refusal
  | [] => none
  | c :: r => match c.denial with
    | some e => some e
    | none => firstDenial r

/-- The answer where every access is allowed, else the refusal: no part of the step happens (R65). -/
def checked (l : List Access) (k : Answer) : Answer :=
  match firstDenial l with
  | some e => .refused e
  | none => k

/-! ### Shapes -/

/-- Reads of `n` bytes from `a` on. -/
def readsAt (a : Word) (n : Nat) : List Access := (List.range n).map fun k => .read (a + BitVec.ofNat 16 k)

/-- Writes of `n` bytes from `a` on. -/
def writesAt (a : Word) (n : Nat) : List Access := (List.range n).map fun k => .write (a + BitVec.ofNat 16 k)

/-- The pointer an indirect operand reads (30_encoding.md R98, R99). -/
def idxPtrReads (s : State) (pcb : Word) : Idx → List Access
  | .indD r => readsAt (idxPtr s pcb (.indD r)) 2
  | .ind16 r n => readsAt (idxPtr s pcb (.ind16 r n)) 2
  | .off5 _ _ | .auto _ _ _ | .acc _ _ | .off9 _ _ | .off16 _ _ => []

/-- The pointer of a memory operand. -/
def ptrReads (s : State) (pcb : Word) : Addr → List Access
  | .idx i => idxPtrReads s pcb i
  | .dir _ | .ext _ => []

/-- A memory operand of `n` bytes that is read. -/
def loads (n : Nat) (s : State) (m : Addr) : List Access := ptrReads s s.pc m ++ readsAt (addrEa s s.pc m) n

/-- A memory operand of `n` bytes that is written. -/
def stores (n : Nat) (s : State) (m : Addr) : List Access := ptrReads s s.pc m ++ writesAt (addrEa s s.pc m) n

/-- A memory operand of `n` bytes that is read, then written (20_memory.md R60). -/
def modifies (n : Nat) (s : State) (m : Addr) : List Access := loads n s m ++ writesAt (addrEa s s.pc m) n

/-- The byte a row with trailing bytes reads (log 13). -/
def trailingLoads (n : Nat) (s : State) (m : Addr) : List Access :=
  ptrReads s (trailingPc s (addrUsesPc m)) m ++ readsAt (trailingEa s m) n

/-- The byte a row with trailing bytes reads, then writes. -/
def trailingModifies (s : State) (m : Addr) : List Access := trailingLoads 1 s m ++ writesAt (trailingEa s m) 1

/-- An 8-bit source operand. -/
def src8Loads (s : State) : Src8 → List Access
  | .imm _ => []
  | .mem m => loads 1 s m

/-- A 16-bit source operand. -/
def src16Loads (s : State) : Src16 → List Access
  | .imm _ => []
  | .mem m => loads 2 s m

/-- The destination of a move, in the state after the source is resolved. -/
def moveStores (n : Nat) (s : State) (srcIdx : Bool) (dst : Addr) : List Access :=
  ptrReads s (trailingPc s (moveDstFree srcIdx dst)) dst ++ writesAt (moveDstEa s srcIdx dst) n

/-- A push of `n` bytes. -/
def pushes (n : Nat) (s : State) : List Access := writesAt (s.sp - BitVec.ofNat 16 n) n

/-- A pull of `n` bytes. -/
def pulls (n : Nat) (s : State) : List Access := readsAt s.sp n

/-- A vector is fetched (60_exceptions.md R502). -/
def vectorReads (vector : Word) : List Access := readsAt vector 2

/-- Taking an exception: the frame, then the vector (R503). -/
def takeAccesses (vector : Word) (s : State) : List Access := pushes 9 s ++ vectorReads vector

/-- Delivering a request: a reset stacks nothing (R503, 70_reset_and_hazards.md R540). -/
def deliverAccesses (src : IntSource) (s : State) : List Access :=
  if isReset src then vectorReads (vectorOf src) else takeAccesses (vectorOf src) s

/-- Leaving WAITING or STOPPED: the frame is on the stack already (R514). -/
def wakeAccesses (src : IntSource) : List Access := vectorReads (vectorOf src)

/-- Where a CALL reads its target and pushes (46_call_return_system.md R300, R301). -/
def callAccesses (s : State) : CallTo → List Access
  | .ext _ _ => pushes 3 s
  | .idx i _ =>
    ptrReads s (trailingPc s (addrUsesPc (.idx i))) (.idx i)
      ++ pushes 3 (linkState s (trailingUpdate s (.idx i)) (idxAuto i))
  | .ind i => readsAt (idxPtr s s.pc i) 3 ++ pushes 3 s

/-! ### Fuzzy logic (47_fuzzy.md) -/

/-- A rule input is read, a rule output is read and written where it is smaller than A (R321). -/
def ruleAccesses (s : State) (ea : Word) : List Access :=
  readsAt ea 1 ++ if s.flagV && (s.read8 ea).ult s.a then writesAt ea 1 else []

/-- One element of REV (R321). -/
def revAccesses (s : State) : List Access :=
  let e := s.read8 s.x
  readsAt s.x 1 ++ if e = 0xFF#8 ∨ e = 0xFE#8 then [] else ruleAccesses s (s.y + e.zeroExtend 16)

/-- One element of REVW: at the end of the inputs of a weighted rule its weight is read (R322). -/
def revwAccesses (s : State) : List Access :=
  let e := s.read16 s.x
  readsAt s.x 2 ++
    if e = 0xFFFF#16 then []
    else if e = 0xFFFE#16 then (if !s.flagV && s.flagC then readsAt s.y 1 else [])
    else ruleAccesses s e

/-- The first `n` elements of a WAV (R323). -/
def wavElements (n : Nat) (s : State) : List Access := readsAt s.x n ++ readsAt s.y n

/-- A WAV from where it stands: whole, abandoned by a reset, or split with six bytes and the frame on the stack (R325). -/
def wavAccesses (s : State) : List Access :=
  match candidates s with
  | [] => wavElements s.b.toNat s
  | c :: cs =>
    let src := highest c cs
    if Config.freeBool s.draws then wavElements s.b.toNat s
    else if isReset src then vectorReads (vectorOf src)
    else wavElements (Config.freeIndex s.draws % s.b.toNat) s ++ pushes 15 s ++ vectorReads (vectorOf src)

/-! ### Every instruction -/

/-- The data bytes an instruction reads and writes, in the state `exec` is called in. -/
def accesses (i : Instr) (s : State) : List Access :=
  match i with
  | .bita o | .bitb o | .cmpa o | .cmpb o | .eora o | .eorb o | .suba o | .subb o | .adca o | .adcb o | .adda o | .addb o
  | .anda o | .andb o | .ldaa o | .ldab o | .oraa o | .orab o | .sbca o | .sbcb o => src8Loads s o
  | .addd o | .cpd o | .cps o | .cpx o | .cpy o | .ldd o | .lds o | .ldx o | .ldy o | .subd o => src16Loads s o
  | .tst m => loads 1 s m
  | .clr m | .staa m | .stab m => stores 1 s m
  | .sts m | .stx m | .sty m | .std m => stores 2 s m
  | .dec m | .lsl m | .asl m | .lsr m | .rol m | .ror m | .asr m | .com m | .inc m | .neg m => modifies 1 s m
  | .bset m _ | .bclr m _ => trailingModifies s m
  | .brclr m _ _ | .brset m _ _ => trailingLoads 1 s m
  | .jmp m => ptrReads s s.pc m
  | .jsr m => ptrReads s s.pc m ++ pushes 2 (linkState s (addrUpdate s m) (addrAuto m))
  | .call d => callAccesses s d
  | .leax i | .leay i | .leas i => idxPtrReads s s.pc i
  | .emaxd i | .emind i => loads 2 s (.idx i)
  | .emaxm i | .eminm i => modifies 2 s (.idx i)
  | .maxa i | .mina i => loads 1 s (.idx i)
  | .maxm i | .minm i => modifies 1 s (.idx i)
  | .etbl i => loads 4 s (.idx i)
  | .tbl i => loads 2 s (.idx i)
  | .emacs hhll => readsAt s.x 2 ++ readsAt s.y 2 ++ readsAt hhll 4 ++ writesAt hhll 4
  | .movb (.imm _) dst => moveStores 1 s false dst
  | .movb (.mem m) dst => trailingLoads 1 s m ++ moveStores 1 (trailingUpdate s m) (isIdx m) dst
  | .movw (.imm _) dst => moveStores 2 s false dst
  | .movw (.mem m) dst => trailingLoads 2 s m ++ moveStores 2 (trailingUpdate s m) (isIdx m) dst
  | .psha | .pshb | .pshc => pushes 1 s
  | .pshd | .pshx | .pshy | .bsr _ => pushes 2 s
  | .pula | .pulb | .pulc => pulls 1 s
  | .puld | .pulx | .puly | .rts => pulls 2 s
  | .rtc => pulls 3 s
  | .rti => pulls 9 s
  | .trap _ => takeAccesses Config.vecTrap s
  | .swi => takeAccesses Config.vecSwi s
  | .bgnd => takeAccesses Config.vecBgnd s
  | .wai => pushes 9 s
  | .stop => if s.flagS then [] else pushes 9 s
  | .mem => readsAt s.x 4 ++ writesAt s.y 1
  | .rev => revAccesses s
  | .revw => revwAccesses s
  | .wav => wavAccesses s
  | .wavr => pulls 6 s ++ wavAccesses (s.drop 6)
  | .bra _ | .brn _ | .bls _ | .bhs _ | .blo _ | .bne _ | .bvc _ | .bvs _ | .bpl _ | .bmi _ | .blt _ | .ble _ | .bcc _
  | .bcs _ | .beq _ | .bge _ | .bgt _ | .bhi _ | .lbra _ | .lbrn _ | .lbhi _ | .lbls _ | .lbcc _ | .lbcs _ | .lbne _
  | .lbeq _ | .lbvc _ | .lbvs _ | .lbpl _ | .lbmi _ | .lbge _ | .lblt _ | .lbgt _ | .lble _ | .lbhs _ | .lblo _
  | .ibeq _ _ | .ibne _ _ | .dbeq _ _ | .dbne _ _ | .tbeq _ _ | .tbne _ _ => []
  | .andcc _ | .clc | .cli | .clv | .orcc _ | .sec | .sei | .sev | .cba | .clra | .clrb | .tsta | .tstb | .deca | .decb
  | .des | .dex | .dey | .ediv | .edivs | .emul | .emuls | .fdiv | .idiv | .idivs | .sba | .aba | .abx | .aby | .ins
  | .lsla | .lslb | .lsld | .lsra | .lsrb | .lsrd | .rola | .rolb | .rora | .rorb | .asla | .aslb | .asld | .asra
  | .asrb | .coma | .comb | .daa | .inca | .incb | .inx | .iny | .mul | .nega | .negb | .nop => []
  | .exg _ _ | .tfr _ _ | .sex _ _ | .tsx | .tsy | .txs | .tys | .xgdx | .xgdy | .tab | .tba | .tap | .tpa => []

end Sys2Proof.Machine
end

