-- ==== Sys2Proof/Machine/Logic.lean ====
section
/-! DEFINITION. Logic, compare, clear and test (41_logic_compare_clear.md; ANDA ANDB BCLR CPD CPS CPX CPY ORAA ORAB ORCC SEC
SEI SEV of 48_lost_rows.md). -/

namespace Sys2Proof.Machine

/-! ### Shared operations -/

/-- A logic operation into an accumulator: N and Z of the result, V = 0 (R161, R174, R409, R457). -/
def logicAcc (f : Byte → Byte → Byte) (r : Acc) (o : Src8) (s : State) : Answer :=
  let v := f (s.acc r) (src8Val s o)
  .next (((src8Update s o).setAcc r v).flagsLogic v)

/-- A bit test: the flags of the logical and, nothing stored (R161, R162). -/
def bitAcc (r : Acc) (o : Src8) (s : State) : Answer :=
  .next ((src8Update s o).flagsLogic (s.acc r &&& src8Val s o))

/-- An 8-bit compare: the flags of the subtraction (R172, R173). -/
def cmpAcc (r : Acc) (o : Src8) (s : State) : Answer :=
  let m := src8Val s o
  .next ((src8Update s o).flagsSub (s.acc r) m (s.acc r - m))

/-- A 16-bit compare of `v` with the operand (R425 to R428). -/
def cmpWord (v : Word) (o : Src16) (s t : State) : Answer :=
  let m := src16Val s o
  .next (t.flagsSub v m (v - m))

/-- A 16-bit compare of an index register or SP; where the operand auto-modifies that register, the old or the new value is
compared, a free choice (R426 to R428, R547; log 15). -/
def cmpAuto (r : AutoReg) (o : Src16) (s : State) : Answer :=
  let t := src16Update s o
  cmpWord (hazardVal s t r (src16Auto o)) o s (hazardSpend t r (src16Auto o))

/-- A bit set or clear in memory: read, modify, write, flags of the result (R163, R416). -/
def bitsMem (f : Byte → Byte) (m : Addr) (s : State) : Answer :=
  let ea := trailingEa s m
  let v := f (s.read8 ea)
  .next (((trailingUpdate s m).write8 ea v).flagsLogic v)

/-! ### Meanings -/

/-- ANDA (R409). -/
def execAnda (o : Src8) (s : State) : Answer := logicAcc (· &&& ·) .a o s
/-- ANDB (R410). -/
def execAndb (o : Src8) (s : State) : Answer := logicAcc (· &&& ·) .b o s
/-- EORA (R174). -/
def execEora (o : Src8) (s : State) : Answer := logicAcc (· ^^^ ·) .a o s
/-- EORB (R175). -/
def execEorb (o : Src8) (s : State) : Answer := logicAcc (· ^^^ ·) .b o s
/-- ORAA (R457). -/
def execOraa (o : Src8) (s : State) : Answer := logicAcc (· ||| ·) .a o s
/-- ORAB (R458). -/
def execOrab (o : Src8) (s : State) : Answer := logicAcc (· ||| ·) .b o s
/-- BITA (R161). -/
def execBita (o : Src8) (s : State) : Answer := bitAcc .a o s
/-- BITB (R162). -/
def execBitb (o : Src8) (s : State) : Answer := bitAcc .b o s
/-- CMPA (R172). -/
def execCmpa (o : Src8) (s : State) : Answer := cmpAcc .a o s
/-- CMPB (R173). -/
def execCmpb (o : Src8) (s : State) : Answer := cmpAcc .b o s
/-- CBA (R164). -/
def execCba (s : State) : Answer := .next (s.flagsSub s.a s.b (s.a - s.b))
/-- CPD (R425). -/
def execCpd (o : Src16) (s : State) : Answer := cmpWord s.d o s (src16Update s o)
/-- CPS (R426). -/
def execCps (o : Src16) (s : State) : Answer := cmpAuto .sp o s
/-- CPX (R427). -/
def execCpx (o : Src16) (s : State) : Answer := cmpAuto .x o s
/-- CPY (R428). -/
def execCpy (o : Src16) (s : State) : Answer := cmpAuto .y o s

/-- BSET (R163). -/
def execBset (m : Addr) (mm : Byte) (s : State) : Answer := bitsMem (· ||| mm) m s
/-- BCLR (R416). -/
def execBclr (m : Addr) (mm : Byte) (s : State) : Answer := bitsMem (· &&& ~~~mm) m s

/-- ANDCC (R165). -/
def execAndcc (ii : Byte) (s : State) : Answer := .next (s.andCcr ii)
/-- CLC: 0 into C (R166). -/
def execClc (s : State) : Answer := .next (s.setC false)
/-- CLI: 0 into I (R167). -/
def execCli (s : State) : Answer := .next (s.setIMask false)
/-- CLV: 0 into V (R171). -/
def execClv (s : State) : Answer := .next (s.setV false)
/-- ORCC (R459). -/
def execOrcc (ii : Byte) (s : State) : Answer := .next (s.orCcr ii)
/-- SEC: set C (R462). -/
def execSec (s : State) : Answer := .next (s.setC true)
/-- SEI: set I (R462). -/
def execSei (s : State) : Answer := .next (s.setIMask true)
/-- SEV: set V (R462). -/
def execSev (s : State) : Answer := .next (s.setV true)

/-- CLR: the byte is written, not read (R168). -/
def execClr (m : Addr) (s : State) : Answer :=
  .next (((addrUpdate s m).write8 (addrEa s s.pc m) 0).setNZVC false true false false)
/-- CLRA (R169, 90_conflicts.md C2). -/
def execClra (s : State) : Answer := .next ((s.setAcc .a 0).setNZVC false true false false)
/-- CLRB (R170, 90_conflicts.md C2). -/
def execClrb (s : State) : Answer := .next ((s.setAcc .b 0).setNZVC false true false false)

/-- TST (R176). -/
def execTst (m : Addr) (s : State) : Answer :=
  let v := s.read8 (addrEa s s.pc m)
  .next ((addrUpdate s m).setNZVC (isNeg v) (isZero v) false false)
/-- TSTA (R177). -/
def execTsta (s : State) : Answer := .next (s.setNZVC (isNeg s.a) (isZero s.a) false false)
/-- TSTB (R178). -/
def execTstb (s : State) : Answer := .next (s.setNZVC (isNeg s.b) (isZero s.b) false false)

end Sys2Proof.Machine
end

