-- ==== Sys2Proof/Machine/MinMax.lean ====
section
/-! DEFINITION. Minimum, maximum and table interpolation (43_minmax_table.md; MINA MINM TBL of 48_lost_rows.md). -/

namespace Sys2Proof.Machine

/-- The greater of two unsigned values (R228). -/
def maxOf {w : Nat} (p q : BitVec w) : BitVec w := if p.ult q then q else p

/-- The lesser of two unsigned values (R228). -/
def minOf {w : Nat} (p q : BitVec w) : BitVec w := if q.ult p then q else p

/-- The 16-bit forms into D: flags of the internal compare D - M (R227, R228). -/
def selectD (f : Word → Word → Word) (i : Idx) (s : State) : Answer :=
  let m := s.read16 (idxEa s s.pc i)
  .next (((idxUpdate s i).setD (f s.d m)).flagsSub s.d m (s.d - m))

/-- The 16-bit forms into memory: the selected value is always written (R229). -/
def selectMem16 (f : Word → Word → Word) (i : Idx) (s : State) : Answer :=
  let ea := idxEa s s.pc i
  let m := s.read16 ea
  .next (((idxUpdate s i).write16 ea (f s.d m)).flagsSub s.d m (s.d - m))

/-- The 8-bit forms into A: flags of the internal compare A - M (R228). -/
def selectA (f : Byte → Byte → Byte) (i : Idx) (s : State) : Answer :=
  let m := s.read8 (idxEa s s.pc i)
  .next (((idxUpdate s i).setAcc .a (f s.a m)).flagsSub s.a m (s.a - m))

/-- The 8-bit forms into memory: the selected value is always written (R229). -/
def selectMem8 (f : Byte → Byte → Byte) (i : Idx) (s : State) : Answer :=
  let ea := idxEa s s.pc i
  let m := s.read8 ea
  .next (((idxUpdate s i).write8 ea (f s.a m)).flagsSub s.a m (s.a - m))

/-- EMAXD (R220). -/
def execEmaxd (i : Idx) (s : State) : Answer := selectD maxOf i s
/-- EMAXM (R221). -/
def execEmaxm (i : Idx) (s : State) : Answer := selectMem16 maxOf i s
/-- EMIND (R222). -/
def execEmind (i : Idx) (s : State) : Answer := selectD minOf i s
/-- EMINM (R223). -/
def execEminm (i : Idx) (s : State) : Answer := selectMem16 minOf i s
/-- MAXA (R225). -/
def execMaxa (i : Idx) (s : State) : Answer := selectA maxOf i s
/-- MAXM (R226). -/
def execMaxm (i : Idx) (s : State) : Answer := selectMem8 maxOf i s
/-- MINA (R448). -/
def execMina (i : Idx) (s : State) : Answer := selectA minOf i s
/-- MINM (R449). -/
def execMinm (i : Idx) (s : State) : Answer := selectMem8 minOf i s

/-- `y1 + Round((f × (y2 − y1)) / 256)` with `EtblRound` (R224, D24; log 27). -/
def interpolate (f y1 y2 : Nat) : Int :=
  match Config.etblRound with
  | .floor => y1 + ((f : Int) * ((y2 : Int) - y1)).fdiv 256
  | .trunc => y1 + ((f : Int) * ((y2 : Int) - y1)).tdiv 256

/-- ETBL: N and Z of the new D, V not written, C undefined (R224). -/
def execEtbl (i : Idx) (s : State) : Answer :=
  let ea := idxEa s s.pc i
  let r : Word := BitVec.ofInt 16 (interpolate s.b.toNat (s.read16 ea).toNat (s.read16 (ea + 2)).toNat)
  let t := (((idxUpdate s i).setD r).freeFlags 0x01#8).spend 1
  .next (t.setNZC (isNeg r) (isZero r) t.flagC)

/-- TBL: the 8-bit sibling, into A (R475). -/
def execTbl (i : Idx) (s : State) : Answer :=
  let ea := idxEa s s.pc i
  let r : Byte := BitVec.ofInt 8 (interpolate s.b.toNat (s.read8 ea).toNat (s.read8 (ea + 1)).toNat)
  let t := (((idxUpdate s i).setAcc .a r).freeFlags 0x01#8).spend 1
  .next (t.setNZC (isNeg r) (isZero r) t.flagC)

end Sys2Proof.Machine
end

