-- ==== Sys2Proof/Machine/MulDiv.lean ====
section
/-! DEFINITION. Multiply, divide, multiply-accumulate (42_arithmetic.md R196 to R203, R207; MUL of 48_lost_rows.md). Division by
zero raises nothing (R207 (f)); indeterminate registers and flags are free values (D12; log 10). -/

namespace Sys2Proof.Machine

/-- The registers a division leaves on a corner case: the stated ones, or free ones under `DivZeroResult = draw` (R207 (f)). -/
def divCorner (stated free : State) : State :=
  match Config.divZeroResult with
  | .stated => stated
  | .draw => free

/-- Y and D take free values. -/
def freeYD (s t : State) : State :=
  { t.setD (Config.freeWord (s.draws + 1)) with y := Config.freeWord s.draws }

/-- X and D take free values. -/
def freeXD (s t : State) : State :=
  { t.setD (Config.freeWord (s.draws + 1)) with x := Config.freeWord s.draws }

/-- EDIV (R196). -/
def execEdiv (s : State) : Answer :=
  let n := s.yd.toNat
  let d := s.x.toNat
  if d = 0 then
    let t := ((s.freeFlags 0x0E#8).setC true).spend 2
    .next (divCorner t (freeYD s t))
  else if 0xFFFF < n / d then
    .next (freeYD s (((s.freeFlags 0x0C#8).setV true).setC false |>.spend 2))
  else
    let q : Word := BitVec.ofNat 16 (n / d)
    .next (({ s.setD (BitVec.ofNat 16 (n % d)) with y := q }).setNZVC (isNeg q) (isZero q) false false)

/-- EDIVS: the quotient truncates toward zero, the remainder has the dividend's sign (R197, R207 (e)). -/
def execEdivs (s : State) : Answer :=
  let n := s.yd.toInt
  let d := s.x.toInt
  if d = 0 then
    let t := ((s.freeFlags 0x0E#8).setC true).spend 2
    .next (divCorner t (freeYD s t))
  else if 32767 < n.tdiv d ∨ n.tdiv d < -32768 then
    .next (freeYD s (((s.freeFlags 0x0C#8).setV true).setC false |>.spend 2))
  else
    let q : Word := BitVec.ofInt 16 (n.tdiv d)
    .next (({ s.setD (BitVec.ofInt 16 (n.tmod d)) with y := q }).setNZVC (isNeg q) (isZero q) false false)

/-- FDIV (R201). -/
def execFdiv (s : State) : Answer :=
  let n := s.d.toNat
  let d := s.x.toNat
  if d ≤ n then
    let t := ((s.setZVC false true (decide (d = 0))).setD (Config.freeWord (s.draws + 1))).spend 2
    .next (divCorner { t with x := 0xFFFF#16 } (freeXD s t))
  else
    let q : Word := BitVec.ofNat 16 (n * 65536 / d)
    .next (({ s.setD (BitVec.ofNat 16 (n * 65536 % d)) with x := q }).setZVC (isZero q) false false)

/-- IDIV (R202). -/
def execIdiv (s : State) : Answer :=
  let n := s.d.toNat
  let d := s.x.toNat
  if d = 0 then
    let t := ((s.setZVC false false true).setD (Config.freeWord (s.draws + 1))).spend 2
    .next (divCorner { t with x := 0xFFFF#16 } (freeXD s t))
  else
    let q : Word := BitVec.ofNat 16 (n / d)
    .next (({ s.setD (BitVec.ofNat 16 (n % d)) with x := q }).setZVC (isZero q) false false)

/-- IDIVS (R203). -/
def execIdivs (s : State) : Answer :=
  let n := s.d.toInt
  let d := s.x.toInt
  let q : Word := BitVec.ofInt 16 (n.tdiv d)
  let r : Word := BitVec.ofInt 16 (n.tmod d)
  if d = 0 then
    .next (freeXD s (((s.freeFlags 0x0E#8).setC true).spend 2))
  else if 32767 < n.tdiv d then
    let t := (((s.freeFlags 0x0C#8).setV true).setC false).spend 2
    .next (divCorner { t.setD r with x := q } (freeXD s t))
  else
    .next (({ s.setD r with x := q }).setNZVC (isNeg q) (isZero q) false false)

/-- EMUL: C is bit 15 of the product (R199). -/
def execEmul (s : State) : Answer :=
  let p : BitVec 32 := s.d.zeroExtend 32 * s.y.zeroExtend 32
  .next ((s.setYD p).setNZC (isNeg p) (isZero p) (p.getLsbD 15))

/-- EMULS (R200). -/
def execEmuls (s : State) : Answer :=
  let p : BitVec 32 := s.d.signExtend 32 * s.y.signExtend 32
  .next ((s.setYD p).setNZC (isNeg p) (isZero p) (p.getLsbD 15))

/-- MUL: C is bit 7 of the product, no other flag (R452). -/
def execMul (s : State) : Answer :=
  let p : Word := s.a.zeroExtend 16 * s.b.zeroExtend 16
  .next ((s.setD p).setC (p.getLsbD 7))

/-- EMACS: factors and accumulator are read before the sum is written; V of the 32-bit sum, C the carry out of bit 15
(R198, 20_memory.md R60). -/
def execEmacs (hhll : Word) (s : State) : Answer :=
  let p : BitVec 32 := (s.read16 s.x).signExtend 32 * (s.read16 s.y).signExtend 32
  let m := s.read32 hhll
  let r := m + p
  .next ((s.write32 hhll r).setNZVC (isNeg r) (isZero r) (addV m p r) (addCarry 15 m p r))

end Sys2Proof.Machine
end

