-- ==== Sys2Proof/Machine/Arith.lean ====
section
/-! DEFINITION. Addition, subtraction, increment, decrement, negation, complement and decimal adjust (42_arithmetic.md; ABA ADCA
ADCB ADDA ADDB ADDD COM* DAA INC* INX INY NEG* SBCA SBCB SUBD of 48_lost_rows.md). -/

namespace Sys2Proof.Machine

/-! ### Shared operations -/

/-- An 8-bit addition into an accumulator, with carry-in `cin` (00_scope.md R15, R404 to R407). -/
def addAcc (cin : Bool) (r : Acc) (o : Src8) (s : State) : Answer :=
  let m := src8Val s o
  let v := s.acc r + m + (BitVec.ofBool cin).zeroExtend 8
  .next (((src8Update s o).setAcc r v).flagsAdd8 (s.acc r) m v)

/-- An 8-bit subtraction into an accumulator, with borrow-in `cin` (00_scope.md R15, R205, R206, R460, R461). -/
def subAcc (cin : Bool) (r : Acc) (o : Src8) (s : State) : Answer :=
  let m := src8Val s o
  let v := s.acc r - m - (BitVec.ofBool cin).zeroExtend 8
  .next (((src8Update s o).setAcc r v).flagsSub (s.acc r) m v)

/-- A one-operand instruction on a memory byte: `f` gives the result, `g` the flags from the state, the old byte and the
result; the address is resolved once (R190, 44_shift_rotate.md R256). -/
def unaryMem (f : Byte → Byte) (g : State → Byte → Byte → State) (m : Addr) (s : State) : Answer :=
  let ea := addrEa s s.pc m
  let v := s.read8 ea
  .next (g ((addrUpdate s m).write8 ea (f v)) v (f v))

/-- A one-operand instruction on an accumulator. -/
def unaryAcc (f : Byte → Byte) (g : State → Byte → Byte → State) (r : Acc) (s : State) : Answer :=
  .next (g (s.setAcc r (f (s.acc r))) (s.acc r) (f (s.acc r)))

/-- Flags of a decrement: V exactly when the old value was `$80`; C not written (R190). PRESUMED (log 11). -/
def flagsDec (s : State) (v r : Byte) : State := s.setNZV (isNeg r) (isZero r) (v == 0x80#8)

/-- Flags of an increment: V exactly when the old value was `$7F`; C not written (R433). -/
def flagsInc (s : State) (v r : Byte) : State := s.setNZV (isNeg r) (isZero r) (v == 0x7F#8)

/-- Flags of a negation: V exactly when the result is `$80`, C exactly when it is not 0 (R453). -/
def flagsNeg (s : State) (_v r : Byte) : State := s.setNZVC (isNeg r) (isZero r) (r == 0x80#8) (!isZero r)

/-- Flags of a complement: V = 0, C = 1 (R422). -/
def flagsCom (s : State) (_v r : Byte) : State := s.setNZVC (isNeg r) (isZero r) false true

/-! ### Meanings -/

/-- ABA (R401). -/
def execAba (s : State) : Answer := .next ({ s with a := s.a + s.b }.flagsAdd8 s.a s.b (s.a + s.b))
/-- ADCA (R404). -/
def execAdca (o : Src8) (s : State) : Answer := addAcc s.flagC .a o s
/-- ADCB (R405). -/
def execAdcb (o : Src8) (s : State) : Answer := addAcc s.flagC .b o s
/-- ADDA (R406). -/
def execAdda (o : Src8) (s : State) : Answer := addAcc false .a o s
/-- ADDB (R407). -/
def execAddb (o : Src8) (s : State) : Answer := addAcc false .b o s
/-- ADDD (R408). -/
def execAddd (o : Src16) (s : State) : Answer :=
  let m := src16Val s o
  .next (((src16Update s o).setD (s.d + m)).flagsAdd16 s.d m (s.d + m))
/-- SBA (R204). -/
def execSba (s : State) : Answer := .next ({ s with a := s.a - s.b }.flagsSub s.a s.b (s.a - s.b))
/-- SUBA (R205). -/
def execSuba (o : Src8) (s : State) : Answer := subAcc false .a o s
/-- SUBB (R206). -/
def execSubb (o : Src8) (s : State) : Answer := subAcc false .b o s
/-- SBCA (R460). -/
def execSbca (o : Src8) (s : State) : Answer := subAcc s.flagC .a o s
/-- SBCB (R461). -/
def execSbcb (o : Src8) (s : State) : Answer := subAcc s.flagC .b o s
/-- SUBD (R467). -/
def execSubd (o : Src16) (s : State) : Answer :=
  let m := src16Val s o
  .next (((src16Update s o).setD (s.d - m)).flagsSub s.d m (s.d - m))

/-- DEC (R190). -/
def execDec (m : Addr) (s : State) : Answer := unaryMem (· - 1) flagsDec m s
/-- DECA (R191). -/
def execDeca (s : State) : Answer := unaryAcc (· - 1) flagsDec .a s
/-- DECB (R192). -/
def execDecb (s : State) : Answer := unaryAcc (· - 1) flagsDec .b s
/-- INC (R433). -/
def execInc (m : Addr) (s : State) : Answer := unaryMem (· + 1) flagsInc m s
/-- INCA (R434). -/
def execInca (s : State) : Answer := unaryAcc (· + 1) flagsInc .a s
/-- INCB (R435). -/
def execIncb (s : State) : Answer := unaryAcc (· + 1) flagsInc .b s
/-- NEG (R453). -/
def execNeg (m : Addr) (s : State) : Answer := unaryMem (0 - ·) flagsNeg m s
/-- NEGA (R454). -/
def execNega (s : State) : Answer := unaryAcc (0 - ·) flagsNeg .a s
/-- NEGB (R455). -/
def execNegb (s : State) : Answer := unaryAcc (0 - ·) flagsNeg .b s
/-- COM (R422). -/
def execCom (m : Addr) (s : State) : Answer := unaryMem (~~~ ·) flagsCom m s
/-- COMA (R423). -/
def execComa (s : State) : Answer := unaryAcc (~~~ ·) flagsCom .a s
/-- COMB (R424). -/
def execComb (s : State) : Answer := unaryAcc (~~~ ·) flagsCom .b s

/-- DEX: only Z is written (R194). -/
def execDex (s : State) : Answer := .next ({ s with x := s.x - 1 }.setZ (s.x - 1 == 0))
/-- DEY (R195). -/
def execDey (s : State) : Answer := .next ({ s with y := s.y - 1 }.setZ (s.y - 1 == 0))
/-- INX: only Z is written (R437). -/
def execInx (s : State) : Answer := .next ({ s with x := s.x + 1 }.setZ (s.x + 1 == 0))
/-- INY (R438). -/
def execIny (s : State) : Answer := .next ({ s with y := s.y + 1 }.setZ (s.y + 1 == 0))

/-! ### Decimal adjust (R429; log 28) -/

/-- What DAA adds to A, and the C it leaves, where A, H and C are what an addition of two packed decimal bytes leaves;
elsewhere the spec says nothing. `hi` and `lo` are A's nibbles. PRESUMED, unsafe. -/
def daaAdjust (c h : Bool) (hi lo : Nat) : Option (Byte × Bool) :=
  match c, h with
  | false, false =>
    if lo ≤ 9 then (if hi ≤ 9 then some (0x00, false) else some (0x60, true))
    else if hi ≤ 8 then some (0x06, false) else some (0x66, true)
  | false, true =>
    if lo ≤ 3 then (if hi ≤ 9 then some (0x06, false) else some (0x66, true)) else none
  | true, false =>
    if hi ≤ 2 then (if lo ≤ 9 then some (0x60, true) else some (0x66, true)) else none
  | true, true => if hi ≤ 3 && lo ≤ 3 then some (0x66, true) else none

/-- DAA: A becomes the decimal sum, N and Z of it, C the decimal carry, V undefined; after anything but a decimal addition A
and C are free values (R429). -/
def execDaa (s : State) : Answer :=
  let t := (s.freeFlags 0x03#8).spend 2
  match daaAdjust s.flagC s.flagH (s.a.toNat / 16) (s.a.toNat % 16) with
  | some (k, c) => .next ({ t with a := s.a + k }.setNZC (isNeg (s.a + k)) (isZero (s.a + k)) c)
  | none =>
    let r := Config.freeByte (s.draws + 1)
    .next ({ t with a := r }.setNZC (isNeg r) (isZero r) t.flagC)

end Sys2Proof.Machine
end

