-- ==== Sys2Proof/Machine/Shift.lean ====
section
/-! DEFINITION. Shifts and rotates by one bit (44_shift_rotate.md; ASR ASRA ASRB of 48_lost_rows.md). Zero fill, the bit moved
into C and V = N xor C are PRESUMED (R254; log 11). -/

namespace Sys2Proof.Machine

/-- `ShiftL` (R255). -/
def shiftL {w : Nat} (m : BitVec w) : BitVec w := m <<< 1
/-- `ShiftR` (R255). -/
def shiftR {w : Nat} (m : BitVec w) : BitVec w := m >>> 1
/-- The arithmetic shift right: bit 7 is kept (R412). -/
def shiftAR (m : Byte) : Byte := m.sshiftRight 1
/-- `RotL` with carry-in `c` (R255). -/
def rotL (c : Bool) (m : Byte) : Byte := (m <<< 1) ||| (BitVec.ofBool c).zeroExtend 8
/-- `RotR` with carry-in `c` (R255). -/
def rotR (c : Bool) (m : Byte) : Byte := (BitVec.ofBool c).zeroExtend 8 <<< 7 ||| (m >>> 1)

/-- Flags of a left shift or rotate: C is the old bit msb (R255). -/
def flagsLeft (s : State) (v r : Byte) : State := s.flagsShift r v.msb
/-- Flags of a right shift or rotate: C is the old bit 0 (R255). -/
def flagsRight (s : State) (v r : Byte) : State := s.flagsShift r (v.getLsbD 0)

/-- LSL (R240). -/
def execLsl (m : Addr) (s : State) : Answer := unaryMem shiftL flagsLeft m s
/-- ASL, the same function as LSL (R240, R411). -/
def execAsl (m : Addr) (s : State) : Answer := unaryMem shiftL flagsLeft m s
/-- LSLA (R241). -/
def execLsla (s : State) : Answer := unaryAcc shiftL flagsLeft .a s
/-- ASLA, the same encoding as LSLA (R241, R411). -/
def execAsla (s : State) : Answer := unaryAcc shiftL flagsLeft .a s
/-- LSLB (R242). -/
def execLslb (s : State) : Answer := unaryAcc shiftL flagsLeft .b s
/-- ASLB, the same encoding as LSLB (R242, R411). -/
def execAslb (s : State) : Answer := unaryAcc shiftL flagsLeft .b s
/-- The 16-bit left shift of D (R243). -/
def shiftLeftD (s : State) : State := (s.setD (shiftL s.d)).flagsShift (shiftL s.d) s.d.msb
/-- LSLD (R243). -/
def execLsld (s : State) : Answer := .next (shiftLeftD s)
/-- ASLD, the same function as LSLD (R243, R411). -/
def execAsld (s : State) : Answer := .next (shiftLeftD s)
/-- LSR (R244). -/
def execLsr (m : Addr) (s : State) : Answer := unaryMem shiftR flagsRight m s
/-- LSRA (R245). -/
def execLsra (s : State) : Answer := unaryAcc shiftR flagsRight .a s
/-- LSRB (R246). -/
def execLsrb (s : State) : Answer := unaryAcc shiftR flagsRight .b s
/-- LSRD (R247). -/
def execLsrd (s : State) : Answer := .next ((s.setD (shiftR s.d)).flagsShift (shiftR s.d) (s.d.getLsbD 0))
/-- ASR (R412). -/
def execAsr (m : Addr) (s : State) : Answer := unaryMem shiftAR flagsRight m s
/-- ASRA (R413). -/
def execAsra (s : State) : Answer := unaryAcc shiftAR flagsRight .a s
/-- ASRB (R414). -/
def execAsrb (s : State) : Answer := unaryAcc shiftAR flagsRight .b s
/-- ROL (R248). -/
def execRol (m : Addr) (s : State) : Answer := unaryMem (rotL s.flagC) flagsLeft m s
/-- ROLA (R249). -/
def execRola (s : State) : Answer := unaryAcc (rotL s.flagC) flagsLeft .a s
/-- ROLB (R250). -/
def execRolb (s : State) : Answer := unaryAcc (rotL s.flagC) flagsLeft .b s
/-- ROR (R251). -/
def execRor (m : Addr) (s : State) : Answer := unaryMem (rotR s.flagC) flagsRight m s
/-- RORA (R252). -/
def execRora (s : State) : Answer := unaryAcc (rotR s.flagC) flagsRight .a s
/-- RORB (R253). -/
def execRorb (s : State) : Answer := unaryAcc (rotR s.flagC) flagsRight .b s

end Sys2Proof.Machine
end

