-- ==== Sys2Proof/Machine/Transfer.lean ====
section
/-! DEFINITION. Exchange, transfer and load effective address (45_transfer_stack_store.md R260 to R264, R280 to R286; ABX ABY INS
SEX TAB TAP TBA TFR TPA of 48_lost_rows.md). No flag is written but through CCR as a destination, and by TAB and TBA. -/

namespace Sys2Proof.Machine

/-! ### Registers of the postbyte `eb` (30_encoding.md R102) -/

/-- Read an 8-bit register. -/
def readR8 (s : State) : R8 → Byte
  | .a => s.a
  | .b => s.b
  | .ccr => s.ccr

/-- Write an 8-bit register; CCR.X cannot be set (10_state.md R34). -/
def writeR8 (s : State) (r : R8) (v : Byte) : State :=
  match r with
  | .a => { s with a := v }
  | .b => { s with b := v }
  | .ccr => s.loadCcr v

/-- Read a 16-bit register. -/
def readR16 (s : State) : R16 → Word
  | .d => s.d
  | .x => s.x
  | .y => s.y
  | .sp => s.sp

/-- Write a 16-bit register. -/
def writeR16 (s : State) (r : R16) (v : Word) : State :=
  match r with
  | .d => s.setD v
  | .x => { s with x := v }
  | .y => { s with y := v }
  | .sp => { s with sp := v }

/-- TFR: a copy between equal sizes, a sign extension from 8 to 16 bits, the low byte from 16 to 8 (R261, R476). -/
def transfer (r1 r2 : XReg) (s : State) : State :=
  match r1, r2 with
  | .r8 p, .r8 q => writeR8 s q (readR8 s p)
  | .r8 p, .r16 q => writeR16 s q ((readR8 s p).signExtend 16)
  | .r16 p, .r8 q => writeR8 s q (loByte (readR16 s p))
  | .r16 p, .r16 q => writeR16 s q (readR16 s p)

/-- EXG: between equal sizes the values change places. Between sizes R260 states one half and leaves the other open: r1 of 8
bits becomes a free byte, the high byte of an r1 of 16 bits becomes a free byte (D22; log 17). -/
def exchange (r1 r2 : XReg) (s : State) : State :=
  match r1, r2 with
  | .r8 p, .r8 q => writeR8 (writeR8 s p (readR8 s q)) q (readR8 s p)
  | .r16 p, .r16 q => writeR16 (writeR16 s p (readR16 s q)) q (readR16 s p)
  | .r8 p, .r16 q =>
    writeR8 (writeR16 (s.spend 1) q (joinBytes 0 (readR8 s p))) p (Config.freeByte s.draws)
  | .r16 p, .r8 q =>
    writeR8 (writeR16 (s.spend 1) p (joinBytes (Config.freeByte s.draws) (readR8 s q))) q (loByte (readR16 s p))

/-! ### Meanings -/

/-- EXG (R260). -/
def execExg (r1 r2 : XReg) (s : State) : Answer := .next (exchange r1 r2 s)
/-- TFR (R261, R476). -/
def execTfr (r1 r2 : XReg) (s : State) : Answer := .next (transfer r1 r2 s)
/-- SEX: sign extension of an 8-bit register (R463). -/
def execSex (r1 : R8) (r2 : R16) (s : State) : Answer := .next (writeR16 s r2 ((readR8 s r1).signExtend 16))
/-- TSX (R280). -/
def execTsx (s : State) : Answer := .next { s with x := s.sp }
/-- TSY (R281). -/
def execTsy (s : State) : Answer := .next { s with y := s.sp }
/-- TXS (R282). -/
def execTxs (s : State) : Answer := .next { s with sp := s.x }
/-- TYS (R283). -/
def execTys (s : State) : Answer := .next { s with sp := s.y }
/-- XGDX (R284). -/
def execXgdx (s : State) : Answer := .next { s.setD s.x with x := s.d }
/-- XGDY (R285). -/
def execXgdy (s : State) : Answer := .next { s.setD s.y with y := s.d }
/-- TAP: CCR from A, X cannot be set (R471). -/
def execTap (s : State) : Answer := .next (s.loadCcr s.a)
/-- TPA (R472). -/
def execTpa (s : State) : Answer := .next { s with a := s.ccr }
/-- TAB: N and Z of the value, V = 0 (R469). -/
def execTab (s : State) : Answer := .next ({ s with b := s.a }.flagsLogic s.a)
/-- TBA (R470). -/
def execTba (s : State) : Answer := .next ({ s with a := s.b }.flagsLogic s.b)

/-- LEAX: the address itself, no memory access. With a post-modified destination the two writes to X are not ordered: one
comes last, a free choice (R262, R286; log 14). -/
def execLeax (i : Idx) (s : State) : Answer :=
  let t := idxUpdate s i
  .next { hazardSpend t .x (idxPostAuto i) with x := hazardWrite s t .x (idxPostAuto i) (idxEa s s.pc i) }
/-- LEAY (R263, R286; log 14). -/
def execLeay (i : Idx) (s : State) : Answer :=
  let t := idxUpdate s i
  .next { hazardSpend t .y (idxPostAuto i) with y := hazardWrite s t .y (idxPostAuto i) (idxEa s s.pc i) }
/-- LEAS (R264, R286; log 14). -/
def execLeas (i : Idx) (s : State) : Answer :=
  let t := idxUpdate s i
  .next { hazardSpend t .sp (idxPostAuto i) with sp := hazardWrite s t .sp (idxPostAuto i) (idxEa s s.pc i) }
/-- ABX: B is added unsigned (R402). -/
def execAbx (s : State) : Answer := .next { s with x := s.x + s.b.zeroExtend 16 }
/-- ABY (R403). -/
def execAby (s : State) : Answer := .next { s with y := s.y + s.b.zeroExtend 16 }
/-- DES (R193). -/
def execDes (s : State) : Answer := .next { s with sp := s.sp - 1 }
/-- INS (R436). -/
def execIns (s : State) : Answer := .next { s with sp := s.sp + 1 }

end Sys2Proof.Machine
end

