-- ==== Sys2Proof/Machine/Dispatch.lean ====
section
/-! DEFINITION. One arm per instruction, each a direct call of its meaning. PC is `PCnext` on entry (00_scope.md R11). -/

namespace Sys2Proof.Machine

/-- The meaning of an instruction. -/
def exec (i : Instr) (s : State) : Host.Outcome State Fault Refusal :=
  match i with
  | .bra rr => Sys2Proof.Machine.execBra rr s
  | .brn rr => Sys2Proof.Machine.execBrn rr s
  | .bls rr => Sys2Proof.Machine.execBls rr s
  | .bhs rr => Sys2Proof.Machine.execBhs rr s
  | .blo rr => Sys2Proof.Machine.execBlo rr s
  | .bne rr => Sys2Proof.Machine.execBne rr s
  | .bvc rr => Sys2Proof.Machine.execBvc rr s
  | .bvs rr => Sys2Proof.Machine.execBvs rr s
  | .bpl rr => Sys2Proof.Machine.execBpl rr s
  | .bmi rr => Sys2Proof.Machine.execBmi rr s
  | .blt rr => Sys2Proof.Machine.execBlt rr s
  | .ble rr => Sys2Proof.Machine.execBle rr s
  | .bcc rr => Sys2Proof.Machine.execBcc rr s
  | .bcs rr => Sys2Proof.Machine.execBcs rr s
  | .bsr rr => Sys2Proof.Machine.execBsr rr s
  | .brclr m mm rr => Sys2Proof.Machine.execBrclr m mm rr s
  | .brset m mm rr => Sys2Proof.Machine.execBrset m mm rr s
  | .ibeq c off => Sys2Proof.Machine.execIbeq c off s
  | .ibne c off => Sys2Proof.Machine.execIbne c off s
  | .andcc ii => Sys2Proof.Machine.execAndcc ii s
  | .clc => Sys2Proof.Machine.execClc s
  | .cli => Sys2Proof.Machine.execCli s
  | .clv => Sys2Proof.Machine.execClv s
  | .bita o => Sys2Proof.Machine.execBita o s
  | .bitb o => Sys2Proof.Machine.execBitb o s
  | .bset m mm => Sys2Proof.Machine.execBset m mm s
  | .cba => Sys2Proof.Machine.execCba s
  | .clr m => Sys2Proof.Machine.execClr m s
  | .clra => Sys2Proof.Machine.execClra s
  | .clrb => Sys2Proof.Machine.execClrb s
  | .cmpa o => Sys2Proof.Machine.execCmpa o s
  | .cmpb o => Sys2Proof.Machine.execCmpb o s
  | .eora o => Sys2Proof.Machine.execEora o s
  | .eorb o => Sys2Proof.Machine.execEorb o s
  | .tst m => Sys2Proof.Machine.execTst m s
  | .tsta => Sys2Proof.Machine.execTsta s
  | .tstb => Sys2Proof.Machine.execTstb s
  | .dec m => Sys2Proof.Machine.execDec m s
  | .deca => Sys2Proof.Machine.execDeca s
  | .decb => Sys2Proof.Machine.execDecb s
  | .des => Sys2Proof.Machine.execDes s
  | .dex => Sys2Proof.Machine.execDex s
  | .dey => Sys2Proof.Machine.execDey s
  | .ediv => Sys2Proof.Machine.execEdiv s
  | .edivs => Sys2Proof.Machine.execEdivs s
  | .emacs hhll => Sys2Proof.Machine.execEmacs hhll s
  | .emul => Sys2Proof.Machine.execEmul s
  | .emuls => Sys2Proof.Machine.execEmuls s
  | .fdiv => Sys2Proof.Machine.execFdiv s
  | .idiv => Sys2Proof.Machine.execIdiv s
  | .idivs => Sys2Proof.Machine.execIdivs s
  | .sba => Sys2Proof.Machine.execSba s
  | .suba o => Sys2Proof.Machine.execSuba o s
  | .subb o => Sys2Proof.Machine.execSubb o s
  | .emaxd ix => Sys2Proof.Machine.execEmaxd ix s
  | .emaxm ix => Sys2Proof.Machine.execEmaxm ix s
  | .emind ix => Sys2Proof.Machine.execEmind ix s
  | .eminm ix => Sys2Proof.Machine.execEminm ix s
  | .maxa ix => Sys2Proof.Machine.execMaxa ix s
  | .maxm ix => Sys2Proof.Machine.execMaxm ix s
  | .etbl ix => Sys2Proof.Machine.execEtbl ix s
  | .lsl m => Sys2Proof.Machine.execLsl m s
  | .lsr m => Sys2Proof.Machine.execLsr m s
  | .rol m => Sys2Proof.Machine.execRol m s
  | .ror m => Sys2Proof.Machine.execRor m s
  | .asl m => Sys2Proof.Machine.execAsl m s
  | .lsla => Sys2Proof.Machine.execLsla s
  | .lslb => Sys2Proof.Machine.execLslb s
  | .lsld => Sys2Proof.Machine.execLsld s
  | .lsra => Sys2Proof.Machine.execLsra s
  | .lsrb => Sys2Proof.Machine.execLsrb s
  | .lsrd => Sys2Proof.Machine.execLsrd s
  | .rola => Sys2Proof.Machine.execRola s
  | .rolb => Sys2Proof.Machine.execRolb s
  | .rora => Sys2Proof.Machine.execRora s
  | .rorb => Sys2Proof.Machine.execRorb s
  | .asla => Sys2Proof.Machine.execAsla s
  | .aslb => Sys2Proof.Machine.execAslb s
  | .asld => Sys2Proof.Machine.execAsld s
  | .exg r1 r2 => Sys2Proof.Machine.execExg r1 r2 s
  | .tfr r1 r2 => Sys2Proof.Machine.execTfr r1 r2 s
  | .tsx => Sys2Proof.Machine.execTsx s
  | .tsy => Sys2Proof.Machine.execTsy s
  | .txs => Sys2Proof.Machine.execTxs s
  | .tys => Sys2Proof.Machine.execTys s
  | .xgdx => Sys2Proof.Machine.execXgdx s
  | .xgdy => Sys2Proof.Machine.execXgdy s
  | .leax ix => Sys2Proof.Machine.execLeax ix s
  | .leay ix => Sys2Proof.Machine.execLeay ix s
  | .leas ix => Sys2Proof.Machine.execLeas ix s
  | .psha => Sys2Proof.Machine.execPsha s
  | .pshb => Sys2Proof.Machine.execPshb s
  | .pshc => Sys2Proof.Machine.execPshc s
  | .pshd => Sys2Proof.Machine.execPshd s
  | .pshx => Sys2Proof.Machine.execPshx s
  | .pshy => Sys2Proof.Machine.execPshy s
  | .pula => Sys2Proof.Machine.execPula s
  | .pulb => Sys2Proof.Machine.execPulb s
  | .pulc => Sys2Proof.Machine.execPulc s
  | .puld => Sys2Proof.Machine.execPuld s
  | .pulx => Sys2Proof.Machine.execPulx s
  | .puly => Sys2Proof.Machine.execPuly s
  | .sts m => Sys2Proof.Machine.execSts m s
  | .stx m => Sys2Proof.Machine.execStx m s
  | .sty m => Sys2Proof.Machine.execSty m s
  | .call t => Sys2Proof.Machine.execCall t s
  | .rtc => Sys2Proof.Machine.execRtc s
  | .rti => Sys2Proof.Machine.execRti s
  | .rts => Sys2Proof.Machine.execRts s
  | .stop => Sys2Proof.Machine.execStop s
  | .trap tn => Sys2Proof.Machine.execTrap tn s
  | .wai => Sys2Proof.Machine.execWai s
  | .mem => Sys2Proof.Machine.execMem s
  | .rev => Sys2Proof.Machine.execRev s
  | .revw => Sys2Proof.Machine.execRevw s
  | .wav => Sys2Proof.Machine.execWav s
  | .wavr => Sys2Proof.Machine.execWavr s
  | .aba => Sys2Proof.Machine.execAba s
  | .abx => Sys2Proof.Machine.execAbx s
  | .aby => Sys2Proof.Machine.execAby s
  | .ins => Sys2Proof.Machine.execIns s
  | .adca o => Sys2Proof.Machine.execAdca o s
  | .adcb o => Sys2Proof.Machine.execAdcb o s
  | .adda o => Sys2Proof.Machine.execAdda o s
  | .addb o => Sys2Proof.Machine.execAddb o s
  | .addd o => Sys2Proof.Machine.execAddd o s
  | .anda o => Sys2Proof.Machine.execAnda o s
  | .andb o => Sys2Proof.Machine.execAndb o s
  | .asr m => Sys2Proof.Machine.execAsr m s
  | .asra => Sys2Proof.Machine.execAsra s
  | .asrb => Sys2Proof.Machine.execAsrb s
  | .bclr m mm => Sys2Proof.Machine.execBclr m mm s
  | .beq rr => Sys2Proof.Machine.execBeq rr s
  | .bge rr => Sys2Proof.Machine.execBge rr s
  | .bgt rr => Sys2Proof.Machine.execBgt rr s
  | .bhi rr => Sys2Proof.Machine.execBhi rr s
  | .bgnd => Sys2Proof.Machine.execBgnd s
  | .com m => Sys2Proof.Machine.execCom m s
  | .coma => Sys2Proof.Machine.execComa s
  | .comb => Sys2Proof.Machine.execComb s
  | .cpd o => Sys2Proof.Machine.execCpd o s
  | .cps o => Sys2Proof.Machine.execCps o s
  | .cpx o => Sys2Proof.Machine.execCpx o s
  | .cpy o => Sys2Proof.Machine.execCpy o s
  | .daa => Sys2Proof.Machine.execDaa s
  | .dbeq c off => Sys2Proof.Machine.execDbeq c off s
  | .dbne c off => Sys2Proof.Machine.execDbne c off s
  | .tbeq c off => Sys2Proof.Machine.execTbeq c off s
  | .tbne c off => Sys2Proof.Machine.execTbne c off s
  | .inc m => Sys2Proof.Machine.execInc m s
  | .inca => Sys2Proof.Machine.execInca s
  | .incb => Sys2Proof.Machine.execIncb s
  | .inx => Sys2Proof.Machine.execInx s
  | .iny => Sys2Proof.Machine.execIny s
  | .jmp m => Sys2Proof.Machine.execJmp m s
  | .jsr m => Sys2Proof.Machine.execJsr m s
  | .lbra qqrr => Sys2Proof.Machine.execLbra qqrr s
  | .lbrn qqrr => Sys2Proof.Machine.execLbrn qqrr s
  | .lbhi qqrr => Sys2Proof.Machine.execLbhi qqrr s
  | .lbls qqrr => Sys2Proof.Machine.execLbls qqrr s
  | .lbcc qqrr => Sys2Proof.Machine.execLbcc qqrr s
  | .lbcs qqrr => Sys2Proof.Machine.execLbcs qqrr s
  | .lbne qqrr => Sys2Proof.Machine.execLbne qqrr s
  | .lbeq qqrr => Sys2Proof.Machine.execLbeq qqrr s
  | .lbvc qqrr => Sys2Proof.Machine.execLbvc qqrr s
  | .lbvs qqrr => Sys2Proof.Machine.execLbvs qqrr s
  | .lbpl qqrr => Sys2Proof.Machine.execLbpl qqrr s
  | .lbmi qqrr => Sys2Proof.Machine.execLbmi qqrr s
  | .lbge qqrr => Sys2Proof.Machine.execLbge qqrr s
  | .lblt qqrr => Sys2Proof.Machine.execLblt qqrr s
  | .lbgt qqrr => Sys2Proof.Machine.execLbgt qqrr s
  | .lble qqrr => Sys2Proof.Machine.execLble qqrr s
  | .lbhs qqrr => Sys2Proof.Machine.execLbhs qqrr s
  | .lblo qqrr => Sys2Proof.Machine.execLblo qqrr s
  | .ldaa o => Sys2Proof.Machine.execLdaa o s
  | .ldab o => Sys2Proof.Machine.execLdab o s
  | .ldd o => Sys2Proof.Machine.execLdd o s
  | .lds o => Sys2Proof.Machine.execLds o s
  | .ldx o => Sys2Proof.Machine.execLdx o s
  | .ldy o => Sys2Proof.Machine.execLdy o s
  | .mina ix => Sys2Proof.Machine.execMina ix s
  | .minm ix => Sys2Proof.Machine.execMinm ix s
  | .movb src dst => Sys2Proof.Machine.execMovb src dst s
  | .movw src dst => Sys2Proof.Machine.execMovw src dst s
  | .mul => Sys2Proof.Machine.execMul s
  | .neg m => Sys2Proof.Machine.execNeg m s
  | .nega => Sys2Proof.Machine.execNega s
  | .negb => Sys2Proof.Machine.execNegb s
  | .nop => Sys2Proof.Machine.execNop s
  | .oraa o => Sys2Proof.Machine.execOraa o s
  | .orab o => Sys2Proof.Machine.execOrab o s
  | .orcc ii => Sys2Proof.Machine.execOrcc ii s
  | .sec => Sys2Proof.Machine.execSec s
  | .sei => Sys2Proof.Machine.execSei s
  | .sev => Sys2Proof.Machine.execSev s
  | .sbca o => Sys2Proof.Machine.execSbca o s
  | .sbcb o => Sys2Proof.Machine.execSbcb o s
  | .sex r1 r2 => Sys2Proof.Machine.execSex r1 r2 s
  | .staa m => Sys2Proof.Machine.execStaa m s
  | .stab m => Sys2Proof.Machine.execStab m s
  | .std m => Sys2Proof.Machine.execStd m s
  | .subd o => Sys2Proof.Machine.execSubd o s
  | .swi => Sys2Proof.Machine.execSwi s
  | .tab => Sys2Proof.Machine.execTab s
  | .tba => Sys2Proof.Machine.execTba s
  | .tap => Sys2Proof.Machine.execTap s
  | .tpa => Sys2Proof.Machine.execTpa s
  | .tbl ix => Sys2Proof.Machine.execTbl ix s

end Sys2Proof.Machine
end

