-- ==== Sys2Proof/Machine/Fetch.lean ====
section
/-! DEFINITION. Fetching an instruction's bytes (10_state.md R43, 20_memory.md R69). -/

namespace Sys2Proof.Machine

/-- The element at a position, else the default. -/
def nthByte : List Byte → Nat → Byte → Byte
  | [], _, d => d
  | c :: _, 0, _ => c
  | _ :: r, n + 1, d => nthByte r n d

/-- The older bytes the queue may still hold for an address. -/
def olderBytes : List Host.Cell → Nat → List Byte
  | [], _ => []
  | c :: r, n => if c.1 = n then c.2 :: olderBytes r n else olderBytes r n

/-- Fetch the byte at `a`: what memory holds, or, after a store close ahead of PC, one of the older bytes, a free choice
(R69; log 19). -/
def fetchByte (s : State) (k : Nat) (a : Word) : Byte :=
  nthByte (olderBytes s.stale a.toNat) (Config.freeIndex (s.draws + k)) (s.read8 a)

/-- The six bytes from PC on, the longest an instruction can be (30_encoding.md R84). -/
def fetchBytes (s : State) : List Byte :=
  [fetchByte s 0 s.pc, fetchByte s 1 (s.pc + 1), fetchByte s 2 (s.pc + 2), fetchByte s 3 (s.pc + 3),
    fetchByte s 4 (s.pc + 4), fetchByte s 5 (s.pc + 5)]

/-- The free values of a fetch are used up. -/
def fetchSpend (s : State) : State := if s.stale = [] then s else s.spend 6

end Sys2Proof.Machine
end

