-- ==== Sys2Proof/Machine/Cycle.lean ====
section
/-! DEFINITION. One step of the machine in each run state (60_exceptions.md R509, R514, R515). -/

namespace Sys2Proof.Machine

/-! ### An instruction -/

/-- The bytes the queue may still hold after an instruction whose successor is `next`: those in the window from `next` on. A
change of flow has left none; an instruction that stays at its own address keeps what there is (20_memory.md R69; log 19). -/
def settle (next : Word) (t : State) : State :=
  { t with stale := if t.pc = next then t.stale.filter fun c => inQueue next (BitVec.ofNat 16 c.1) else t.stale }

/-- Run a decoded instruction of `len` bytes: PC is `PCnext` while it runs (00_scope.md R11). Its bytes are read before any data
(20_memory.md R60). -/
def runDecoded (i : Instr) (len : Nat) (s : State) : Answer :=
  let next := s.pc + BitVec.ofNat 16 len
  let u := { fetchSpend s with pc := next }
  checked (readsAt s.pc len ++ accesses i u) <|
    match exec i u with
    | .next t => .next (settle next t)
    | .fault f => .fault f
    | .refused r => .refused r

/-- Execute the instruction at PC. -/
def runInstr (s : State) : Answer :=
  match decode (fetchBytes s) with
  | .ok (i, rest) => runDecoded i (6 - rest.length) s
  | .error e => .refused (.undecodable e)

/-! ### The three run states -/

/-- RUNNING: where a request is let through, it is delivered or one more instruction runs, a free choice (R509; log 20). -/
def stepRunning (s : State) : Answer :=
  match candidates s with
  | [] => runInstr s
  | c :: cs =>
    let src := highest c cs
    if Config.freeBool s.draws then checked (deliverAccesses src s) (.next (deliver src s.pc (s.spend 1)))
    else runInstr (s.spend 1)

/-- WAITING (R514). -/
def stepWaiting (s : State) : Answer :=
  match candidates s with
  | [] => .next s
  | c :: cs => let src := highest c cs; checked (wakeAccesses src) (.next (wake src s))

/-- The sources that can end a STOP: every reset, XIRQ and IRQ, but no on-chip interrupt source while the clocks stand still
(R515, 70_reset_and_hazards.md R540; log 22). -/
def wakesStop : IntSource → Bool
  | .reset | .clockMonitor | .cop | .xirq | .irq => true
  | .peripheral _ => false

/-- A STOP ended by a masked XIRQ: execution continues after it, and whether SP moves back over the frame is a free choice
(R515, D19; log 22). -/
def stopContinue (s : State) : State :=
  { s.spend 1 with sp := pick s.draws s.sp (s.sp + 9), run := .running }

/-- STOPPED (R515). -/
def stepStopped (s : State) : Answer :=
  match (candidates s).filter wakesStop with
  | c :: cs => let src := highest c cs; checked (wakeAccesses src) (.next (wake src s))
  | [] => if s.flagX ∧ .xirq ∈ s.requests then .next (stopContinue s) else .next s

/-- One step. -/
def cycle (s : State) : Answer :=
  match s.run with
  | .running => stepRunning s
  | .waiting => stepWaiting s
  | .stopped => stepStopped s

/-- Store bytes from `a` on under a page, as a load from outside the machine does. -/
def placeBytes (page : Byte) (a : Word) : List Byte → Mem → Mem
  | [], m => m
  | v :: r, m => placeBytes page (a + 1) r (m.write (Config.pageMap page a) v)

end Sys2Proof.Machine
end

