-- ==== Sys2Proof/Machine/Step.lean ====
section
/-! DEFINITION. The step function, and placing an instruction where the next step fetches it. -/

namespace Sys2Proof.Machine

/-- One step of the machine: an instruction, an exception entry, one element of REV or REVW, or a wait (10_state.md R20). -/
def step (s : State) : Host.Outcome State Fault Refusal := cycle s

/-- `s` with the table's word at PC, RUNNING and with no request pending, so that the next step runs it (log 34). -/
def State.withFetchWord (s : State) (nbits w : Nat) : State :=
  { s with mem := placeBytes s.ppage s.pc (tableBytes nbits w) s.mem, run := .running, requests := [], stale := [] }

end Sys2Proof.Machine
end

