-- ==== Sys2Proof/Safety.lean ====
section
/-! DEFINITION. The terms claims are stated in: what a store leaves of memory, byte by byte, and the condition code register
each kind of instruction leaves, in numbers rather than in bits (00_scope.md R15). -/

namespace Sys2Proof.Safety

open Sys2Proof.Machine

/-! ### Memory, by the read of one byte -/

/-- Every byte reads as before. -/
def StoresNothing (s t : State) : Prop := ∀ b : Word, t.read8 b = s.read8 b

/-- The byte at `ea` is `v`, every other byte reads as before. -/
def StoresByte (s t : State) (ea : Word) (v : Byte) : Prop := ∀ b : Word, t.read8 b = if b = ea then v else s.read8 b

/-- The bytes at `ea` and `ea + 1` are `v`'s, high byte first, every other byte reads as before (20_memory.md R53, R58). -/
def StoresWord (s t : State) (ea v : Word) : Prop :=
  ∀ b : Word, t.read8 b = if b = ea then hiByte v else if b = ea + 1 then loByte v else s.read8 b

/-- The four bytes from `ea` on are `v`'s, the most significant first, every other byte reads as before (R53). -/
def StoresLong (s t : State) (ea : Word) (v : BitVec 32) : Prop :=
  ∀ b : Word, t.read8 b =
    if b = ea then v.extractLsb' 24 8 else if b = ea + 1 then v.extractLsb' 16 8
    else if b = ea + 2 then v.extractLsb' 8 8 else if b = ea + 3 then v.extractLsb' 0 8 else s.read8 b

/-- The three bytes CALL leaves from `ea` on: the page, then the return address (20_memory.md R71). -/
def StoresCall (s t : State) (ea : Word) (page : Byte) (rtn : Word) : Prop :=
  ∀ b : Word, t.read8 b =
    if b = ea then page else if b = ea + 1 then hiByte rtn else if b = ea + 2 then loByte rtn else s.read8 b

/-- The nine bytes of the exception frame from SP - 9 on: CCR, B, A, X, Y, RTN; every other byte reads as before
(60_exceptions.md R504). -/
def StoresFrame (s t : State) (rtn : Word) : Prop :=
  ∀ b : Word, t.read8 b =
    if b = s.sp - 9 then s.ccr else if b = s.sp - 8 then s.b else if b = s.sp - 7 then s.a
    else if b = s.sp - 6 then hiByte s.x else if b = s.sp - 5 then loByte s.x
    else if b = s.sp - 4 then hiByte s.y else if b = s.sp - 3 then loByte s.y
    else if b = s.sp - 2 then hiByte rtn else if b = s.sp - 1 then loByte rtn else s.read8 b

/-- An exception entry from `s` with return address `rtn` through `vector`: the frame is stacked, SP is nine lower, I is set
(and X where `setsX`), PC is the word memory then holds at the vector, the queue is refilled; nothing else changes
(60_exceptions.md R503, 20_memory.md R69). -/
def Entered (s t : State) (rtn vector : Word) (setsX : Bool) : Prop :=
  StoresFrame s t rtn ∧
  t = { s with
        sp := s.sp - 9
        ccr := ccrOf s.flagS (s.flagX || setsX) s.flagH true s.flagN s.flagZ s.flagV s.flagC
        pc := t.read16 vector
        mem := t.mem
        stale := [] }

/-! ### Condition codes, in numbers -/

/-- N of a result. -/
def negative {w : Nat} (r : BitVec w) : Bool := decide (r.toInt < 0)

/-- Z of a result. -/
def zero {w : Nat} (r : BitVec w) : Bool := decide (r.toNat = 0)

/-- Outside the signed range of `w` bits. -/
def overflows (w : Nat) (v : Int) : Bool := decide (v < -(2 ^ (w - 1)) ∨ 2 ^ (w - 1) ≤ v)

/-- N, Z, V, C as given, S, X, H, I kept. -/
def ccrNZVC (s : State) (n z v c : Bool) : Byte := ccrOf s.flagS s.flagX s.flagH s.flagI n z v c

/-- N and Z of the result, V = 0, C kept. -/
def ccrLogic {w : Nat} (s : State) (r : BitVec w) : Byte := ccrNZVC s (negative r) (zero r) false s.flagC

/-- After the 8-bit addition `p + m + c`: H out of bit 3, C out of bit 7, V of the signed sum. -/
def ccrAdd8 (s : State) (p m : Byte) (c : Nat) : Byte :=
  let r := BitVec.ofNat 8 (p.toNat + m.toNat + c)
  ccrOf s.flagS s.flagX (decide (16 ≤ p.toNat % 16 + m.toNat % 16 + c)) s.flagI (negative r) (zero r)
    (overflows 8 (p.toInt + m.toInt + c)) (decide (256 ≤ p.toNat + m.toNat + c))

/-- After the 16-bit addition `p + m`; H is kept. -/
def ccrAdd16 (s : State) (p m : Word) : Byte :=
  let r := BitVec.ofNat 16 (p.toNat + m.toNat)
  ccrNZVC s (negative r) (zero r) (overflows 16 (p.toInt + m.toInt)) (decide (65536 ≤ p.toNat + m.toNat))

/-- After the 8-bit subtraction `p - m - c`: C a borrow, V of the signed difference. -/
def ccrSub8 (s : State) (p m : Byte) (c : Nat) : Byte :=
  let r := BitVec.ofInt 8 (p.toInt - m.toInt - c)
  ccrNZVC s (negative r) (zero r) (overflows 8 (p.toInt - m.toInt - c)) (decide (p.toNat < m.toNat + c))

/-- After the 16-bit subtraction `p - m`. -/
def ccrSub16 (s : State) (p m : Word) : Byte :=
  let r := BitVec.ofInt 16 (p.toInt - m.toInt)
  ccrNZVC s (negative r) (zero r) (overflows 16 (p.toInt - m.toInt)) (decide (p.toNat < m.toNat))

/-- After a shift or rotate with result `r` and bit shifted out `c`: V = N xor C (44_shift_rotate.md R255). -/
def ccrShift {w : Nat} (s : State) (r : BitVec w) (c : Bool) : Byte :=
  ccrNZVC s (negative r) (zero r) (negative r != c) c

/-- The register `v` leaves when it is loaded into CCR: every bit of `v`, but X only where it was set before (10_state.md
R34). -/
def ccrLoaded (s : State) (v : Byte) : Byte :=
  ccrOf (v.getLsbD 7) (s.flagX && v.getLsbD 6) (v.getLsbD 5) (v.getLsbD 4) (v.getLsbD 3) (v.getLsbD 2) (v.getLsbD 1)
    (v.getLsbD 0)

/-! ### Branches -/

/-- What a relative branch answers: `PCnext + off` mod 2^16 and a refilled queue when taken, `PCnext` when not, nothing else
changed (40_branch.md R130, 20_memory.md R69). -/
def branches (s : State) (taken : Bool) (off : Int) : Answer :=
  .next { s with
    pc := if taken then BitVec.ofInt 16 (s.pc.toNat + off) else s.pc
    stale := if taken then [] else s.stale }

/-- In state `t` each branch whose caption compares, short and long, is taken exactly when its comparison holds of the first
number (`pn` unsigned, `pi` signed) and the second (`mn`, `mi`) (40_branch.md R130, 48_lost_rows.md R417 to R421, R431). -/
def BranchesCompare (t : State) (pn mn : Nat) (pi mi : Int) : Prop :=
  (∀ rr : Byte,
    exec (.bhs rr) t = branches t (decide (mn ≤ pn)) rr.toInt ∧ exec (.blo rr) t = branches t (decide (pn < mn)) rr.toInt ∧
    exec (.bls rr) t = branches t (decide (pn ≤ mn)) rr.toInt ∧ exec (.bhi rr) t = branches t (decide (mn < pn)) rr.toInt ∧
    exec (.bge rr) t = branches t (decide (mi ≤ pi)) rr.toInt ∧ exec (.blt rr) t = branches t (decide (pi < mi)) rr.toInt ∧
    exec (.ble rr) t = branches t (decide (pi ≤ mi)) rr.toInt ∧ exec (.bgt rr) t = branches t (decide (mi < pi)) rr.toInt ∧
    exec (.beq rr) t = branches t (decide (pn = mn)) rr.toInt ∧ exec (.bne rr) t = branches t (decide (pn ≠ mn)) rr.toInt) ∧
  ∀ w : Word,
    exec (.lbhs w) t = branches t (decide (mn ≤ pn)) w.toInt ∧ exec (.lblo w) t = branches t (decide (pn < mn)) w.toInt ∧
    exec (.lbls w) t = branches t (decide (pn ≤ mn)) w.toInt ∧ exec (.lbhi w) t = branches t (decide (mn < pn)) w.toInt ∧
    exec (.lbge w) t = branches t (decide (mi ≤ pi)) w.toInt ∧ exec (.lblt w) t = branches t (decide (pi < mi)) w.toInt ∧
    exec (.lble w) t = branches t (decide (pi ≤ mi)) w.toInt ∧ exec (.lbgt w) t = branches t (decide (mi < pi)) w.toInt ∧
    exec (.lbeq w) t = branches t (decide (pn = mn)) w.toInt ∧ exec (.lbne w) t = branches t (decide (pn ≠ mn)) w.toInt

/-- The value of a loop counter. -/
def counter (s : State) : Cntr → Nat
  | .a => s.a.toNat
  | .b => s.b.toNat
  | .d => s.a.toNat * 256 + s.b.toNat
  | .x => s.x.toNat
  | .y => s.y.toNat
  | .sp => s.sp.toNat

/-- The modulus of a loop counter. -/
def counterModulus : Cntr → Nat
  | .a | .b => 256
  | .d | .x | .y | .sp => 65536

/-- A loop primitive's result: the counter has `d` added modulo its width, the branch is taken on the new value, every
register but the counter and PC keeps its value (40_branch.md R146). -/
def Looped (s t : State) (c : Cntr) (d : Int) (onZero : Bool) (off : Int) : Prop :=
  (counter t c : Int) = (counter s c + d) % counterModulus c ∧
  t.pc = (if decide (counter t c = 0) = onZero then BitVec.ofInt 16 (s.pc.toNat + off) else s.pc) ∧
  t.stale = (if decide (counter t c = 0) = onZero then [] else s.stale) ∧
  (c ≠ .a → c ≠ .d → t.a = s.a) ∧ (c ≠ .b → c ≠ .d → t.b = s.b) ∧ (c ≠ .x → t.x = s.x) ∧ (c ≠ .y → t.y = s.y) ∧
  (c ≠ .sp → t.sp = s.sp) ∧
  t = { s with a := t.a, b := t.b, x := t.x, y := t.y, sp := t.sp, pc := t.pc, stale := t.stale }

/-! ### Weighted average -/

/-- What a WAV leaves that runs to its end from partial sums `sop` and `sow`: the sums over B elements on top of them, Z = 1, the
flags H, N, V, C open; with B = 0 the results and Z are open too (47_fuzzy.md R323; log 24). -/
def Averaged (sop : BitVec 32) (sow : Word) (s t : State) : Prop :=
  (s.b ≠ 0 → t.flagZ = true ∧
    t.yd = sop + BitVec.ofNat 32 ((List.range s.b.toNat).map fun k =>
      (s.read8 (s.x + BitVec.ofNat 16 k)).toNat * (s.read8 (s.y + BitVec.ofNat 16 k)).toNat).sum ∧
    t.x = sow + BitVec.ofNat 16
      ((List.range s.b.toNat).map fun k => (s.read8 (s.y + BitVec.ofNat 16 k)).toNat).sum) ∧
  t = { s with
    a := t.a, b := t.b, x := t.x, y := t.y, draws := t.draws
    ccr := ccrOf s.flagS s.flagX t.flagH s.flagI t.flagN t.flagZ t.flagV t.flagC }

/-! ### Decimal digits -/

/-- Both nibbles are decimal digits. -/
def packed (p : Byte) : Prop := p.toNat / 16 ≤ 9 ∧ p.toNat % 16 ≤ 9

/-- The number a packed decimal byte stands for. -/
def decimal (p : Byte) : Nat := p.toNat / 16 * 10 + p.toNat % 16

end Sys2Proof.Safety
end

