-- ==== Sys2Proof/Certificates/Slice0/Obligations.lean ====
section
/-! DEFINITION. The statements for the provers. -/

open Sys2Proof Sys2Proof.Machine Sys2Proof.Safety

/-! ### Encoding -/

/-- Decoding the encoding of any well-formed instruction, whatever bytes follow, gives the instruction back (an alias as the
general instruction it stands for, log 31) and leaves those bytes. -/
def Obligations.DecodeEncode : Prop :=
  ∀ (i : Instr) (rest : List Byte), i.wf = true → decode (encode i ++ rest) = .ok (i.core, rest)

/-- Whatever the decoder answers is well formed, and its encoding is exactly the bytes taken: every word has one meaning and
no bit is dropped. -/
def Obligations.EncodeDecode : Prop :=
  ∀ (bs rest : List Byte) (i : Instr), decode bs = .ok (i, rest) → i.wf = true ∧ encode i ++ rest = bs

/-- Words the source itself prints in full, and at least one per addressing class, decode to what they stand for: inherent,
immediate of 8 and 16 bits, DIR, EXT, every indexed form, REL8, REL9, REL16, transfers. The bit layouts of the postbytes are the
model's (log 12), and so are the rows of ADDD and LBNE, which are lost (log 1). -/
def Obligations.DecodeWords : Prop :=
  decode [0x1B#8, 0x9F#8] = .ok (.leas (.off5 .sp (-1)), []) ∧
  decode [0xB7#8, 0x75#8] = .ok (.tfr (.r16 .sp) (.r16 .x), []) ∧
  decode [0xB7#8, 0xC6#8] = .ok (.exg (.r16 .d) (.r16 .y), []) ∧
  decode [0x10#8, 0xEF#8] = .ok (.andcc 0xEF#8, []) ∧
  decode [0x4B#8, 0xEB#8, 0x10#8, 0x00#8] = .ok (.call (.ind (.ind16 .y 0x1000#16)), []) ∧
  decode [0x04#8, 0xB5#8, 0xFB#8] = .ok (.ibne .x (-5), []) ∧
  decode [0x18#8, 0x1A#8, 0x00#8] = .ok (.emaxd (.off5 .x 0), []) ∧
  decode [0x1E#8, 0x12#8, 0x34#8, 0xC0#8, 0x10#8] = .ok (.brset (.ext 0x1234#16) 0xC0#8 0x10#8, []) ∧
  decode [0x18#8, 0x30#8] = .ok (.trap 0x30#8, []) ∧
  decode [0x3D#8] = .ok (.rts, []) ∧
  decode [0x88#8, 0x7F#8] = .ok (.eora (.imm 0x7F#8), []) ∧
  decode [0xC3#8, 0x12#8, 0x34#8] = .ok (.addd (.imm 0x1234#16), []) ∧
  decode [0x98#8, 0x40#8] = .ok (.eora (.mem (.dir 0x40#8)), []) ∧
  decode [0xB8#8, 0x12#8, 0x34#8] = .ok (.eora (.mem (.ext 0x1234#16)), []) ∧
  decode [0xA8#8, 0x50#8] = .ok (.eora (.mem (.idx (.off5 .y (-16)))), []) ∧
  decode [0xA8#8, 0x2F#8] = .ok (.eora (.mem (.idx (.auto .x false (-1)))), []) ∧
  decode [0xA8#8, 0x77#8] = .ok (.eora (.mem (.idx (.auto .y true 7))), []) ∧
  decode [0xA8#8, 0xE4#8] = .ok (.eora (.mem (.idx (.acc .x .a))), []) ∧
  decode [0xA8#8, 0xED#8] = .ok (.eora (.mem (.idx (.acc .y .b))), []) ∧
  decode [0xA8#8, 0xF6#8] = .ok (.eora (.mem (.idx (.acc .sp .d))), []) ∧
  decode [0xA8#8, 0xE9#8, 0x80#8] = .ok (.eora (.mem (.idx (.off9 .y (-128)))), []) ∧
  decode [0xA8#8, 0xFA#8, 0x12#8, 0x34#8] = .ok (.eora (.mem (.idx (.off16 .pc 0x1234#16))), []) ∧
  decode [0xA8#8, 0xF7#8] = .ok (.eora (.mem (.idx (.indD .sp))), []) ∧
  decode [0x24#8, 0xFB#8] = .ok (.bhs 0xFB#8, []) ∧
  decode [0x18#8, 0x26#8, 0xFE#8, 0xDC#8] = .ok (.lbne 0xFEDC#16, [])

/-- The trap encodings are exactly `18 tn` with tn in `$30` to `$39` or `$40` to `$FF`: nothing else decodes to TRAP. The reserved
postbytes are refused, not trapped: an `eb` with bit 3 set or naming register code 011, an `lb` with bits 7:6 = 11, bit 3 set or
counter code 010 or 011, and no other `eb` or `lb` (the layouts log 12, the refusal log 18 and 33). -/
def Obligations.TrapEncodings : Prop :=
  (∀ (bs rest : List Byte) (tn : Byte),
    decode bs = .ok (.trap tn, rest) ↔
      bs = 0x18#8 :: tn :: rest ∧
        ((0x30 ≤ tn.toNat ∧ tn.toNat ≤ 0x39) ∨ 0x40 ≤ tn.toNat)) ∧
  (∀ (eb : Byte) (rest : List Byte),
    decode (0xB7#8 :: eb :: rest) = .error .reservedTransfer ↔
      eb.toNat / 8 % 2 = 1 ∨ eb.toNat / 16 % 8 = 3 ∨ eb.toNat % 8 = 3) ∧
  ∀ (lb rr : Byte) (rest : List Byte),
    decode (0x04#8 :: lb :: rr :: rest) = .error .reservedLoop ↔
      lb.toNat / 64 = 3 ∨ lb.toNat / 8 % 2 = 1 ∨ lb.toNat % 8 = 2 ∨ lb.toNat % 8 = 3

/-! ### The machine as a whole -/

/-- Where nothing is let through and the bytes fetched at PC decode to an instruction of `6 - rest.length` bytes, the step is
that instruction's meaning with PC moved past it, the queue settled afterwards; with nothing in `stale` the bytes fetched are
memory's. -/
def Obligations.StepRunsDecoded : Prop :=
  ∀ (s : State) (i : Instr) (rest : List Byte),
    s.run = .running → candidates s = [] → decode (fetchBytes s) = .ok (i, rest) →
      (∀ t, exec i { fetchSpend s with pc := s.pc + BitVec.ofNat 16 (6 - rest.length) } = .next t →
        step s = .next (settle (s.pc + BitVec.ofNat 16 (6 - rest.length)) t)) ∧
      (s.stale = [] →
        fetchSpend s = s ∧
        fetchBytes s = [s.read8 s.pc, s.read8 (s.pc + 1), s.read8 (s.pc + 2), s.read8 (s.pc + 3), s.read8 (s.pc + 4),
          s.read8 (s.pc + 5)])

/-- Where memory at PC holds the encoding of a well-formed instruction, nothing is let through and no store is in flight, the
step runs that instruction (an alias as its general instruction) with PC at the byte after it. -/
def Obligations.StepRunsEncoded : Prop :=
  ∀ (s : State) (i : Instr),
    i.wf = true → s.run = .running → candidates s = [] → s.stale = [] →
    (∀ k : Nat, ∀ h : k < (encode i).length, s.read8 (s.pc + BitVec.ofNat 16 k) = (encode i)[k]) →
      ∀ t, exec i.core { s with pc := s.pc + BitVec.ofNat 16 (encode i).length } = .next t →
        step s = .next (settle (s.pc + BitVec.ofNat 16 (encode i).length) t)

/-- No instruction faults or is refused, in any state; a step stops only on fetched bytes that decode to no instruction. The
spec refuses or faults in many of these states (D1, D10, D13, D14, D18, D22, D30, D31): that they run is the model's choice, by
log 1 (lost rows), 2 and 4 (nothing is unwritten), 13 (PC-relative base), 14 to 16 (one register used twice), 17 (mixed sizes),
19 (stores into the queue), 24 (wavr, B = 0), and by log 5 and 6 for the default memory, which denies no access. The bytes are fetched before or after the free choice of an interrupt is used up (log 19, 20, 33). -/
def Obligations.NoInstructionStops : Prop :=
  (∀ (i : Instr) (s : State), ∃ t, exec i s = .next t) ∧
  ∀ s : State, (∃ t, step s = .next t) ∨
    ∃ e, step s = .refused (.undecodable e) ∧
      (decode (fetchBytes s) = .error e ∨ decode (fetchBytes (s.spend 1)) = .error e)

/-- An alias mnemonic does what the general instruction does that its bytes decode to. -/
def Obligations.AliasesAgree : Prop := ∀ (i : Instr) (s : State), exec i s = exec i.core s

/-- Every step keeps the canonical form of memory. -/
def Obligations.MemoryStaysCanonical : Prop :=
  ∀ s t : State, s.mem.wf = true → step s = .next t → t.mem.wf = true

/-- The memory of the reset state has the canonical form. -/
def Obligations.ResetMemoryCanonical : Prop := State.reset.mem.wf = true

/-- Software cannot set CCR.X: while neither a reset nor XIRQ is requested, no step takes X from 0 to 1. -/
def Obligations.XMaskOneWay : Prop :=
  ∀ s t : State, s.flagX = false → (∀ r ∈ s.requests, r ≠ .xirq ∧ isReset r = false) → step s = .next t →
    t.flagX = false

/-- Reset leaves S = X = I = 1, RUNNING, PC at the word of the reset vector; a reset request at any state does the same,
stacks nothing and keeps memory. -/
def Obligations.ResetState : Prop :=
  (State.reset.flagS = true ∧ State.reset.flagX = true ∧ State.reset.flagI = true ∧ State.reset.run = .running ∧
    State.reset.pc = State.reset.read16 0xFFFE#16) ∧
  ∀ (s : State) (rtn : Word),
    let t := deliver .reset rtn s
    t.flagS = true ∧ t.flagX = true ∧ t.flagI = true ∧ t.run = .running ∧ t.pc = s.read16 0xFFFE#16 ∧ t.mem = s.mem

/-- While nothing is let through: only CALL and RTC write PPAGE, only WAI and STOP leave RUNNING. -/
def Obligations.ControlWriters : Prop :=
  ∀ (i : Instr) (s t : State), candidates s = [] → exec i s = .next t →
    ((∀ d, i ≠ .call d) → i ≠ .rtc → t.ppage = s.ppage) ∧ (i ≠ .wai → i ≠ .stop → t.run = s.run) ∧
    t.requests = s.requests

/-! ### Interrupts -/

/-- RUNNING with a request the masks let through: the one of highest priority is delivered, or one more instruction runs. -/
def Obligations.RunningStep : Prop :=
  ∀ s : State, s.run = .running → candidates s ≠ [] →
    ∃ src ∈ s.requests,
      (src = .xirq → s.flagX = false) ∧ (isReset src = false → src ≠ .xirq → s.flagI = false) ∧
      (∀ r ∈ s.requests, (r = .xirq → s.flagX = false) → (isReset r = false → r ≠ .xirq → s.flagI = false) →
        rank r ≤ rank src) ∧
      (step s = .next (deliver src s.pc (s.spend 1)) ∨ step s = runInstr (s.spend 1))

/-- WAITING: with nothing let through nothing changes; else the highest request is taken without a second stacking. STOPPED:
the same for the resets, XIRQ and IRQ, the sources that can end a STOP (log 22); with none of them let through a masked XIRQ
continues after the STOP, and else nothing changes. -/
def Obligations.WaitStopStep : Prop :=
  (∀ s : State, s.run = .waiting → candidates s = [] → step s = .next s) ∧
  (∀ s : State, s.run = .waiting → candidates s ≠ [] →
    ∃ src ∈ candidates s, (∀ r ∈ candidates s, rank r ≤ rank src) ∧
      (isReset src = true → step s = .next (s.resetEntry (vectorOf src))) ∧
      (isReset src = false →
        step s = .next { s with
          ccr := ccrOf s.flagS (s.flagX || decide (src = .xirq)) s.flagH true s.flagN s.flagZ s.flagV s.flagC
          pc := s.read16 (vectorOf src)
          run := .running
          stale := [] })) ∧
  (∀ src : IntSource, wakesStop src = true ↔ isReset src = true ∨ src = .xirq ∨ src = .irq) ∧
  (∀ s : State, s.run = .stopped → (candidates s).filter wakesStop = [] → .xirq ∉ s.requests → step s = .next s) ∧
  (∀ s : State, s.run = .stopped → (candidates s).filter wakesStop ≠ [] →
    ∃ src ∈ candidates s, wakesStop src = true ∧ (∀ r ∈ candidates s, wakesStop r = true → rank r ≤ rank src) ∧
      (isReset src = true → step s = .next (s.resetEntry (vectorOf src))) ∧
      (isReset src = false →
        step s = .next { s with
          ccr := ccrOf s.flagS (s.flagX || decide (src = .xirq)) s.flagH true s.flagN s.flagZ s.flagV s.flagC
          pc := s.read16 (vectorOf src)
          run := .running
          stale := [] })) ∧
  (∀ s : State, s.run = .stopped → (candidates s).filter wakesStop = [] → .xirq ∈ s.requests →
    ∃ t, step s = .next t ∧ (t.sp = s.sp ∨ t.sp = s.sp + 9) ∧
      t = { s with sp := t.sp, run := .running, draws := t.draws })

/-- RTI right after an interrupt entry restores every register, the program counter and the stack pointer. -/
def Obligations.EntryThenReturn : Prop :=
  ∀ (s : State) (src : IntSource), isReset src = false →
    ∃ u, exec .rti (deliver src s.pc s) = .next u ∧ u = { s with mem := u.mem, stale := [] }

/-! ### Branches, calls, returns, exceptions -/

/-- The short branches of the source: encoding, condition, target; nothing but PC changes. -/
def Obligations.ShortBranches : Prop :=
  ∀ (rr : Byte) (s : State),
    (encode (.bhs rr) = [0x24#8, rr] ∧ exec (.bhs rr) s = branches s (!s.flagC) rr.toInt) ∧
    (encode (.ble rr) = [0x2F#8, rr] ∧ exec (.ble rr) s = branches s (s.flagZ || s.flagN != s.flagV) rr.toInt) ∧
    (encode (.blo rr) = [0x25#8, rr] ∧ exec (.blo rr) s = branches s s.flagC rr.toInt) ∧
    (encode (.bls rr) = [0x23#8, rr] ∧ exec (.bls rr) s = branches s (s.flagC || s.flagZ) rr.toInt) ∧
    (encode (.blt rr) = [0x2D#8, rr] ∧ exec (.blt rr) s = branches s (s.flagN != s.flagV) rr.toInt) ∧
    (encode (.bmi rr) = [0x2B#8, rr] ∧ exec (.bmi rr) s = branches s s.flagN rr.toInt) ∧
    (encode (.bne rr) = [0x26#8, rr] ∧ exec (.bne rr) s = branches s (!s.flagZ) rr.toInt) ∧
    (encode (.bpl rr) = [0x2A#8, rr] ∧ exec (.bpl rr) s = branches s (!s.flagN) rr.toInt) ∧
    (encode (.bra rr) = [0x20#8, rr] ∧ exec (.bra rr) s = branches s true rr.toInt) ∧
    (encode (.brn rr) = [0x21#8, rr] ∧ exec (.brn rr) s = .next s) ∧
    (encode (.bvc rr) = [0x28#8, rr] ∧ exec (.bvc rr) s = branches s (!s.flagV) rr.toInt) ∧
    (encode (.bvs rr) = [0x29#8, rr] ∧ exec (.bvs rr) s = branches s s.flagV rr.toInt)

/-- The branches whose rows are lost: BCC, BCS, BEQ, BGE, BGT, BHI and every long branch (log 1). -/
def Obligations.OtherBranches : Prop :=
  (∀ (rr : Byte) (s : State),
    exec (.bcc rr) s = branches s (!s.flagC) rr.toInt ∧ exec (.bcs rr) s = branches s s.flagC rr.toInt ∧
    exec (.beq rr) s = branches s s.flagZ rr.toInt ∧ exec (.bge rr) s = branches s (s.flagN == s.flagV) rr.toInt ∧
    exec (.bgt rr) s = branches s (!s.flagZ && s.flagN == s.flagV) rr.toInt ∧
    exec (.bhi rr) s = branches s (!s.flagC && !s.flagZ) rr.toInt) ∧
  ∀ (w : Word) (s : State),
    exec (.lbra w) s = branches s true w.toInt ∧ exec (.lbrn w) s = .next s ∧
    exec (.lbhi w) s = branches s (!s.flagC && !s.flagZ) w.toInt ∧
    exec (.lbls w) s = branches s (s.flagC || s.flagZ) w.toInt ∧
    exec (.lbcc w) s = branches s (!s.flagC) w.toInt ∧ exec (.lbhs w) s = branches s (!s.flagC) w.toInt ∧
    exec (.lbcs w) s = branches s s.flagC w.toInt ∧ exec (.lblo w) s = branches s s.flagC w.toInt ∧
    exec (.lbne w) s = branches s (!s.flagZ) w.toInt ∧ exec (.lbeq w) s = branches s s.flagZ w.toInt ∧
    exec (.lbvc w) s = branches s (!s.flagV) w.toInt ∧ exec (.lbvs w) s = branches s s.flagV w.toInt ∧
    exec (.lbpl w) s = branches s (!s.flagN) w.toInt ∧ exec (.lbmi w) s = branches s s.flagN w.toInt ∧
    exec (.lbge w) s = branches s (s.flagN == s.flagV) w.toInt ∧
    exec (.lblt w) s = branches s (s.flagN != s.flagV) w.toInt ∧
    exec (.lbgt w) s = branches s (!s.flagZ && s.flagN == s.flagV) w.toInt ∧
    exec (.lble w) s = branches s (s.flagZ || s.flagN != s.flagV) w.toInt

/-- After a compare of A, B or D with an operand, each branch whose caption compares (HS, LO, LS, HI, GE, LT, LE, GT, EQ, NE),
short and long, is taken exactly when its comparison of the two numbers holds, unsigned or signed (BEQ, BGE, BGT, BHI, CPD and
the long branches by log 1, the flags of a compare by log 11). -/
def Obligations.BranchAfterCompare : Prop :=
  (∀ (o : Src8) (s : State), ∃ t, exec (.cmpa o) s = .next t ∧
    BranchesCompare t s.a.toNat (src8Val s o).toNat s.a.toInt (src8Val s o).toInt) ∧
  (∀ (o : Src8) (s : State), ∃ t, exec (.cmpb o) s = .next t ∧
    BranchesCompare t s.b.toNat (src8Val s o).toNat s.b.toInt (src8Val s o).toInt) ∧
  ∀ (o : Src16) (s : State), ∃ t, exec (.cpd o) s = .next t ∧
    BranchesCompare t s.d.toNat (src16Val s o).toNat s.d.toInt (src16Val s o).toInt

/-- The six loop primitives: the counter is changed first, then tested; no flag, no memory (DBEQ, DBNE, TBEQ, TBNE by log 1). -/
def Obligations.LoopPrimitives : Prop :=
  ∀ (c : Cntr) (off : BitVec 9) (s : State),
    (∃ t, exec (.ibeq c off) s = .next t ∧ Looped s t c 1 true off.toInt) ∧
    (∃ t, exec (.ibne c off) s = .next t ∧ Looped s t c 1 false off.toInt) ∧
    (∃ t, exec (.dbeq c off) s = .next t ∧ Looped s t c (-1) true off.toInt) ∧
    (∃ t, exec (.dbne c off) s = .next t ∧ Looped s t c (-1) false off.toInt) ∧
    (∃ t, exec (.tbeq c off) s = .next t ∧ Looped s t c 0 true off.toInt) ∧
    (∃ t, exec (.tbne c off) s = .next t ∧ Looped s t c 0 false off.toInt)

/-- BRCLR is taken exactly when every bit the mask selects is 0, BRSET when every one is 1; the index update happens either
way, memory and flags do not change. -/
def Obligations.BitTestBranches : Prop :=
  ∀ (m : Addr) (mm rr : Byte) (s : State),
    exec (.brclr m mm rr) s =
      branches (trailingUpdate s m)
        (decide (∀ k : Fin 8, mm.getLsbD k = true → (s.read8 (trailingEa s m)).getLsbD k = false)) rr.toInt ∧
    exec (.brset m mm rr) s =
      branches (trailingUpdate s m)
        (decide (∀ k : Fin 8, mm.getLsbD k = true → (s.read8 (trailingEa s m)).getLsbD k = true)) rr.toInt

/-- BSR: the return address is pushed high byte first at the new SP, then the branch is taken. -/
def Obligations.BranchToSubroutine : Prop :=
  ∀ (rr : Byte) (s : State), encode (.bsr rr) = [0x07#8, rr] ∧
    ∃ t, exec (.bsr rr) s = .next t ∧ StoresWord s t (s.sp - 2) s.pc ∧
      t = { s with
        sp := s.sp - 2
        pc := BitVec.ofInt 16 (s.pc.toNat + rr.toInt)
        mem := t.mem
        stale := [] }

/-- NOP changes nothing; JMP goes to the effective address; JSR pushes the return address and goes there; CALL pushes the
return address and the old page, then loads the new page and PC: from the instruction in the direct forms, from the three
bytes at the pointer in the indirect ones. The target, and the pointer an indirect operand reads, are taken from the state
before the push (log 30). Where the operand auto-modifies SP the pushes are at the old or the new SP (log 1, 13, 16, 37). -/
def Obligations.JumpsAndCalls : Prop :=
  (∀ (m : Addr) (s : State),
    exec .nop s = .next s ∧
    exec (.jmp m) s = .next { addrUpdate s m with pc := addrEa s s.pc m, stale := [] } ∧
    ∃ t, exec (.jsr m) s = .next t ∧
      (addrAuto m ≠ some .sp → StoresWord s t (s.sp - 2) s.pc ∧ t.draws = s.draws) ∧
      (addrAuto m = some .sp →
        StoresWord s t (s.sp - 2) s.pc ∨ StoresWord s t ((addrUpdate s m).sp - 2) s.pc) ∧
      t = { addrUpdate s m with
        sp := (addrUpdate s m).sp - 2
        pc := addrEa s s.pc m
        mem := t.mem
        stale := []
        draws := t.draws }) ∧
  (∀ (hhll : Word) (pg : Byte) (s : State),
    ∃ t, exec (.call (.ext hhll pg)) s = .next t ∧ StoresCall s t (s.sp - 3) s.ppage s.pc ∧
      t = { s with sp := s.sp - 3, ppage := pg, pc := hhll, mem := t.mem, stale := [] }) ∧
  (∀ (i : Idx) (pg : Byte) (s : State),
    ∃ t, exec (.call (.idx i pg)) s = .next t ∧
      (idxAuto i ≠ some .sp → StoresCall s t (s.sp - 3) s.ppage s.pc) ∧
      (idxAuto i = some .sp →
        StoresCall s t (s.sp - 3) s.ppage s.pc ∨ StoresCall s t ((idxUpdate s i).sp - 3) s.ppage s.pc) ∧
      (idxUsesPc i = false → t.pc = idxEa s s.pc i) ∧
      t = { idxUpdate s i with
        sp := (idxUpdate s i).sp - 3
        ppage := pg
        pc := t.pc
        mem := t.mem
        stale := []
        draws := t.draws }) ∧
  ∀ (i : Idx) (s : State),
    ∃ t, exec (.call (.ind i)) s = .next t ∧ StoresCall s t (s.sp - 3) s.ppage s.pc ∧
      t = { s with
        sp := s.sp - 3
        ppage := s.read8 (idxPtr s s.pc i + 2)
        pc := s.read16 (idxPtr s s.pc i)
        mem := t.mem
        stale := [] }

/-- RTS and RTC: what they pull and where they go; RTC pulls the address under the page it has pulled. -/
def Obligations.Returns : Prop :=
  ∀ s : State,
    (encode .rts = [0x3D#8] ∧ exec .rts s = .next { s with pc := s.read16 s.sp, sp := s.sp + 2, stale := [] }) ∧
    (encode .rtc = [0x0A#8] ∧
      exec .rtc s = .next { s with
        ppage := s.read8 s.sp
        pc := { s with ppage := s.read8 s.sp }.read16 (s.sp + 1)
        sp := s.sp + 3
        stale := [] })

/-- RTS undoes BSR and JSR, RTC undoes CALL: the call's return address, the stack pointer and the page come back. -/
def Obligations.CallThenReturn : Prop :=
  (∀ (rr : Byte) (s : State), ∃ t u, exec (.bsr rr) s = .next t ∧ exec .rts t = .next u ∧ u.pc = s.pc ∧ u.sp = s.sp) ∧
  (∀ (m : Addr) (s : State), addrAuto m ≠ some .sp →
    ∃ t u, exec (.jsr m) s = .next t ∧ exec .rts t = .next u ∧ u.pc = s.pc ∧ u.sp = s.sp) ∧
  (∀ (hhll : Word) (pg : Byte) (s : State), ∃ t u, exec (.call (.ext hhll pg)) s = .next t ∧ exec .rtc t = .next u ∧
    u.pc = s.pc ∧ u.sp = s.sp ∧ u.ppage = s.ppage) ∧
  (∀ (i : Idx) (pg : Byte) (s : State), idxAuto i ≠ some .sp →
    ∃ t u, exec (.call (.idx i pg)) s = .next t ∧ exec .rtc t = .next u ∧
      u.pc = s.pc ∧ u.sp = s.sp ∧ u.ppage = s.ppage) ∧
  ∀ (i : Idx) (s : State), ∃ t u, exec (.call (.ind i)) s = .next t ∧ exec .rtc t = .next u ∧
    u.pc = s.pc ∧ u.sp = s.sp ∧ u.ppage = s.ppage

/-- RTI: CCR (X can be cleared, not set), B, A, X, Y and PC from the nine bytes at SP. -/
def Obligations.ReturnFromInterrupt : Prop :=
  ∀ s : State, encode .rti = [0x0B#8] ∧
    exec .rti s = .next { s with
      ccr := ccrLoaded s (s.read8 s.sp)
      b := s.read8 (s.sp + 1)
      a := s.read8 (s.sp + 2)
      x := joinBytes (s.read8 (s.sp + 3)) (s.read8 (s.sp + 4))
      y := joinBytes (s.read8 (s.sp + 5)) (s.read8 (s.sp + 6))
      pc := joinBytes (s.read8 (s.sp + 7)) (s.read8 (s.sp + 8))
      sp := s.sp + 9
      stale := [] }

/-- TRAP takes the exception through the TRAP vector, whatever the masks are: the frame holds the old CCR, I is set, X is not. -/
def Obligations.TrapEntry : Prop :=
  ∀ (tn : Byte) (s : State), encode (.trap tn) = [0x18#8, tn] ∧
    ∃ t, exec (.trap tn) s = .next t ∧ Entered s t s.pc Config.vecTrap false

/-- The other entries: an interrupt stacks the frame with the address of the next instruction, sets I, and X for XIRQ alone,
and goes through its source's vector; SWI goes through the SWI vector; BGND stacks the frame as a software interrupt does and
goes through the debug vector, writing no flag (log 1, 20, 29). -/
def Obligations.OtherEntries : Prop :=
  (∀ (s : State) (src : IntSource) (rtn : Word), isReset src = false →
    Entered s (deliver src rtn s) rtn (vectorOf src) (decide (src = .xirq))) ∧
  ∀ s : State,
    (∃ t, exec .swi s = .next t ∧ Entered s t s.pc Config.vecSwi false) ∧
    (∃ t, exec .bgnd s = .next t ∧ StoresFrame s t s.pc ∧
      t = { s with sp := s.sp - 9, pc := t.read16 Config.vecBgnd, mem := t.mem, stale := [] })

/-- WAI stacks the nine-byte frame and waits; STOP does the same and stops when S = 0, and does nothing when S = 1. -/
def Obligations.WaitAndStop : Prop :=
  ∀ s : State,
    (encode .wai = [0x3E#8] ∧ ∃ t, exec .wai s = .next t ∧ StoresFrame s t s.pc ∧
      t = { s with sp := s.sp - 9, run := .waiting, mem := t.mem, stale := t.stale }) ∧
    encode .stop = [0x18#8, 0x3E#8] ∧ (s.flagS = true → exec .stop s = .next s) ∧
    (s.flagS = false → ∃ t, exec .stop s = .next t ∧ StoresFrame s t s.pc ∧
      t = { s with sp := s.sp - 9, run := .stopped, mem := t.mem, stale := t.stale })

/-! ### Arithmetic -/

/-- Additions: the sum modulo the width, H out of bit 3 (8-bit forms), C out of the top bit, V of the signed sum; nothing else
changes but what the operand's address mode updates (log 1). -/
def Obligations.Additions : Prop :=
  (∀ (o : Src8) (s : State), let m := src8Val s o
    exec (.adda o) s = .next { src8Update s o with
      a := BitVec.ofNat 8 (s.a.toNat + m.toNat), ccr := ccrAdd8 s s.a m 0 } ∧
    exec (.addb o) s = .next { src8Update s o with
      b := BitVec.ofNat 8 (s.b.toNat + m.toNat), ccr := ccrAdd8 s s.b m 0 } ∧
    exec (.adca o) s = .next { src8Update s o with
      a := BitVec.ofNat 8 (s.a.toNat + m.toNat + s.flagC.toNat), ccr := ccrAdd8 s s.a m s.flagC.toNat } ∧
    exec (.adcb o) s = .next { src8Update s o with
      b := BitVec.ofNat 8 (s.b.toNat + m.toNat + s.flagC.toNat), ccr := ccrAdd8 s s.b m s.flagC.toNat }) ∧
  (∀ (o : Src16) (s : State), let m := src16Val s o
    exec (.addd o) s = .next { src16Update s o with
      a := hiByte (BitVec.ofNat 16 (s.d.toNat + m.toNat))
      b := loByte (BitVec.ofNat 16 (s.d.toNat + m.toNat))
      ccr := ccrAdd16 s s.d m }) ∧
  ∀ s : State, exec .aba s = .next { s with
    a := BitVec.ofNat 8 (s.a.toNat + s.b.toNat), ccr := ccrAdd8 s s.a s.b 0 }

/-- Subtractions: the difference modulo the width, C a borrow, V of the signed difference, H kept (SBCA, SBCB, SUBD by
log 1). -/
def Obligations.Subtractions : Prop :=
  (∀ (o : Src8) (s : State), let m := src8Val s o
    exec (.suba o) s = .next { src8Update s o with
      a := BitVec.ofInt 8 (s.a.toInt - m.toInt), ccr := ccrSub8 s s.a m 0 } ∧
    exec (.subb o) s = .next { src8Update s o with
      b := BitVec.ofInt 8 (s.b.toInt - m.toInt), ccr := ccrSub8 s s.b m 0 } ∧
    exec (.sbca o) s = .next { src8Update s o with
      a := BitVec.ofInt 8 (s.a.toInt - m.toInt - s.flagC.toNat), ccr := ccrSub8 s s.a m s.flagC.toNat } ∧
    exec (.sbcb o) s = .next { src8Update s o with
      b := BitVec.ofInt 8 (s.b.toInt - m.toInt - s.flagC.toNat), ccr := ccrSub8 s s.b m s.flagC.toNat }) ∧
  (∀ (o : Src16) (s : State), let m := src16Val s o
    exec (.subd o) s = .next { src16Update s o with
      a := hiByte (BitVec.ofInt 16 (s.d.toInt - m.toInt))
      b := loByte (BitVec.ofInt 16 (s.d.toInt - m.toInt))
      ccr := ccrSub16 s s.d m }) ∧
  ∀ s : State, exec .sba s = .next { s with
    a := BitVec.ofInt 8 (s.a.toInt - s.b.toInt), ccr := ccrSub8 s s.a s.b 0 }

/-- Compares: the flags of the subtraction and nothing else. Where the operand auto-modifies the compared register, the
flags are those of the old or of the new value (log 1, log 15). -/
def Obligations.Compares : Prop :=
  (∀ (o : Src8) (s : State),
    exec (.cmpa o) s = .next { src8Update s o with ccr := ccrSub8 s s.a (src8Val s o) 0 } ∧
    exec (.cmpb o) s = .next { src8Update s o with ccr := ccrSub8 s s.b (src8Val s o) 0 }) ∧
  (∀ s : State, exec .cba s = .next { s with ccr := ccrSub8 s s.a s.b 0 }) ∧
  ∀ (o : Src16) (s : State), let m := src16Val s o; let u := src16Update s o
    exec (.cpd o) s = .next { u with ccr := ccrSub16 s s.d m } ∧
    (src16Auto o ≠ some .x → exec (.cpx o) s = .next { u with ccr := ccrSub16 s s.x m }) ∧
    (src16Auto o ≠ some .y → exec (.cpy o) s = .next { u with ccr := ccrSub16 s s.y m }) ∧
    (src16Auto o ≠ some .sp → exec (.cps o) s = .next { u with ccr := ccrSub16 s s.sp m }) ∧
    (src16Auto o = some .x → ∃ t, exec (.cpx o) s = .next t ∧ t = { u with ccr := t.ccr, draws := t.draws } ∧
      (t.ccr = ccrSub16 s s.x m ∨ t.ccr = ccrSub16 s u.x m)) ∧
    (src16Auto o = some .y → ∃ t, exec (.cpy o) s = .next t ∧ t = { u with ccr := t.ccr, draws := t.draws } ∧
      (t.ccr = ccrSub16 s s.y m ∨ t.ccr = ccrSub16 s u.y m)) ∧
    (src16Auto o = some .sp → ∃ t, exec (.cps o) s = .next t ∧ t = { u with ccr := t.ccr, draws := t.draws } ∧
      (t.ccr = ccrSub16 s s.sp m ∨ t.ccr = ccrSub16 s u.sp m))

/-- Logic into an accumulator, and the bit tests: N and Z of the result, V = 0, C kept (ANDA, ANDB, ORAA, ORAB by log 1). -/
def Obligations.Logic : Prop :=
  ∀ (o : Src8) (s : State), let m := src8Val s o; let u := src8Update s o
    exec (.anda o) s = .next { u with a := s.a &&& m, ccr := ccrLogic s (s.a &&& m) } ∧
    exec (.andb o) s = .next { u with b := s.b &&& m, ccr := ccrLogic s (s.b &&& m) } ∧
    exec (.eora o) s = .next { u with a := s.a ^^^ m, ccr := ccrLogic s (s.a ^^^ m) } ∧
    exec (.eorb o) s = .next { u with b := s.b ^^^ m, ccr := ccrLogic s (s.b ^^^ m) } ∧
    exec (.oraa o) s = .next { u with a := s.a ||| m, ccr := ccrLogic s (s.a ||| m) } ∧
    exec (.orab o) s = .next { u with b := s.b ||| m, ccr := ccrLogic s (s.b ||| m) } ∧
    exec (.bita o) s = .next { u with ccr := ccrLogic s (s.a &&& m) } ∧
    exec (.bitb o) s = .next { u with ccr := ccrLogic s (s.b &&& m) }

/-- CLC, CLI, CLV, CLRA, CLRB: encoding and effect. -/
def Obligations.Clears : Prop :=
  ∀ s : State,
    (encode .clc = [0x10#8, 0xFE#8] ∧
      exec .clc s = .next { s with ccr := ccrNZVC s s.flagN s.flagZ s.flagV false }) ∧
    (encode .clv = [0x10#8, 0xFD#8] ∧
      exec .clv s = .next { s with ccr := ccrNZVC s s.flagN s.flagZ false s.flagC }) ∧
    (encode .cli = [0x10#8, 0xEF#8] ∧
      exec .cli s = .next { s with
        ccr := ccrOf s.flagS s.flagX s.flagH false s.flagN s.flagZ s.flagV s.flagC }) ∧
    (encode .clra = [0x87#8] ∧ exec .clra s = .next { s with a := 0, ccr := ccrNZVC s false true false false }) ∧
    (encode .clrb = [0xC7#8] ∧ exec .clrb s = .next { s with b := 0, ccr := ccrNZVC s false true false false })

/-- ANDCC clears the flags whose mask bit is 0; ORCC sets those whose mask bit is 1, but X; SEC, SEI, SEV one flag each; TAP
loads CCR from A, X at most cleared; TPA copies CCR (ORCC, SEx, TAP, TPA by log 1). -/
def Obligations.CcrWrites : Prop :=
  ∀ (ii : Byte) (s : State),
    exec (.andcc ii) s = .next { s with
      ccr := ccrOf (s.flagS && ii.getLsbD 7) (s.flagX && ii.getLsbD 6) (s.flagH && ii.getLsbD 5)
        (s.flagI && ii.getLsbD 4) (s.flagN && ii.getLsbD 3) (s.flagZ && ii.getLsbD 2) (s.flagV && ii.getLsbD 1)
        (s.flagC && ii.getLsbD 0) } ∧
    exec (.orcc ii) s = .next { s with
      ccr := ccrOf (s.flagS || ii.getLsbD 7) s.flagX (s.flagH || ii.getLsbD 5) (s.flagI || ii.getLsbD 4)
        (s.flagN || ii.getLsbD 3) (s.flagZ || ii.getLsbD 2) (s.flagV || ii.getLsbD 1) (s.flagC || ii.getLsbD 0) } ∧
    exec .sec s = .next { s with ccr := ccrNZVC s s.flagN s.flagZ s.flagV true } ∧
    exec .sev s = .next { s with ccr := ccrNZVC s s.flagN s.flagZ true s.flagC } ∧
    exec .sei s = .next { s with
      ccr := ccrOf s.flagS s.flagX s.flagH true s.flagN s.flagZ s.flagV s.flagC } ∧
    exec .tap s = .next { s with ccr := ccrLoaded s s.a } ∧
    exec .tpa s = .next { s with a := s.ccr }

/-- CLR, TST, TSTA, TSTB, BSET, BCLR: the byte stored, the flags, and that nothing else changes (BCLR by log 1). -/
def Obligations.MemoryBits : Prop :=
  (∀ s : State,
    exec .tsta s = .next { s with ccr := ccrNZVC s (negative s.a) (zero s.a) false false } ∧
    exec .tstb s = .next { s with ccr := ccrNZVC s (negative s.b) (zero s.b) false false }) ∧
  (∀ (m : Addr) (s : State),
    exec (.tst m) s = .next { addrUpdate s m with
      ccr := ccrNZVC s (negative (s.read8 (addrEa s s.pc m))) (zero (s.read8 (addrEa s s.pc m))) false false } ∧
    ∃ t, exec (.clr m) s = .next t ∧ StoresByte s t (addrEa s s.pc m) 0 ∧
      t = { addrUpdate s m with
        ccr := ccrNZVC s false true false false, mem := t.mem, stale := t.stale }) ∧
  ∀ (m : Addr) (mm : Byte) (s : State), let v := s.read8 (trailingEa s m)
    (∃ t, exec (.bset m mm) s = .next t ∧ StoresByte s t (trailingEa s m) (v ||| mm) ∧
      t = { trailingUpdate s m with ccr := ccrLogic s (v ||| mm), mem := t.mem, stale := t.stale }) ∧
    (∃ t, exec (.bclr m mm) s = .next t ∧ StoresByte s t (trailingEa s m) (v &&& ~~~mm) ∧
      t = { trailingUpdate s m with ccr := ccrLogic s (v &&& ~~~mm), mem := t.mem, stale := t.stale })

/-- DEC, INC, NEG, COM on memory: the byte stored, V exactly when the signed result is out of range, C of NEG and COM; DEC and
INC keep C (INC, NEG, COM by log 1). -/
def Obligations.UnaryMemory : Prop :=
  ∀ (m : Addr) (s : State), let ea := addrEa s s.pc m; let old := s.read8 ea
    let stored := fun (i : Instr) (r : Byte) (v c : Bool) => ∃ t, exec i s = .next t ∧ StoresByte s t ea r ∧
      t = { addrUpdate s m with ccr := ccrNZVC s (negative r) (zero r) v c, mem := t.mem, stale := t.stale }
    stored (.dec m) (BitVec.ofInt 8 (old.toInt - 1)) (overflows 8 (old.toInt - 1)) s.flagC ∧
    stored (.inc m) (BitVec.ofInt 8 (old.toInt + 1)) (overflows 8 (old.toInt + 1)) s.flagC ∧
    stored (.neg m) (BitVec.ofInt 8 (-old.toInt)) (overflows 8 (-old.toInt)) (!zero old) ∧
    stored (.com m) (BitVec.ofInt 8 (-1 - old.toInt)) false true

/-- The same four on A and B; DEX, DEY, INX, INY write their register and Z alone; DES, INS, ABX, ABY write no flag (INCx, NEGx,
COMx, INX, INY, INS, ABX, ABY by log 1). -/
def Obligations.UnaryRegisters : Prop :=
  ∀ s : State,
    let inA := fun (i : Instr) (r : Byte) (v c : Bool) =>
      exec i s = .next { s with a := r, ccr := ccrNZVC s (negative r) (zero r) v c }
    let inB := fun (i : Instr) (r : Byte) (v c : Bool) =>
      exec i s = .next { s with b := r, ccr := ccrNZVC s (negative r) (zero r) v c }
    let inX := fun (i : Instr) (r : Word) =>
      exec i s = .next { s with x := r, ccr := ccrNZVC s s.flagN (zero r) s.flagV s.flagC }
    let inY := fun (i : Instr) (r : Word) =>
      exec i s = .next { s with y := r, ccr := ccrNZVC s s.flagN (zero r) s.flagV s.flagC }
    inA .deca (BitVec.ofInt 8 (s.a.toInt - 1)) (overflows 8 (s.a.toInt - 1)) s.flagC ∧
    inB .decb (BitVec.ofInt 8 (s.b.toInt - 1)) (overflows 8 (s.b.toInt - 1)) s.flagC ∧
    inA .inca (BitVec.ofInt 8 (s.a.toInt + 1)) (overflows 8 (s.a.toInt + 1)) s.flagC ∧
    inB .incb (BitVec.ofInt 8 (s.b.toInt + 1)) (overflows 8 (s.b.toInt + 1)) s.flagC ∧
    inA .nega (BitVec.ofInt 8 (-s.a.toInt)) (overflows 8 (-s.a.toInt)) (!zero s.a) ∧
    inB .negb (BitVec.ofInt 8 (-s.b.toInt)) (overflows 8 (-s.b.toInt)) (!zero s.b) ∧
    inA .coma (BitVec.ofInt 8 (-1 - s.a.toInt)) false true ∧
    inB .comb (BitVec.ofInt 8 (-1 - s.b.toInt)) false true ∧
    inX .dex (BitVec.ofInt 16 (s.x.toNat - 1)) ∧ inY .dey (BitVec.ofInt 16 (s.y.toNat - 1)) ∧
    inX .inx (BitVec.ofInt 16 (s.x.toNat + 1)) ∧ inY .iny (BitVec.ofInt 16 (s.y.toNat + 1)) ∧
    exec .des s = .next { s with sp := BitVec.ofInt 16 (s.sp.toNat - 1) } ∧
    exec .ins s = .next { s with sp := BitVec.ofInt 16 (s.sp.toNat + 1) } ∧
    exec .abx s = .next { s with x := BitVec.ofNat 16 (s.x.toNat + s.b.toNat) } ∧
    exec .aby s = .next { s with y := BitVec.ofNat 16 (s.y.toNat + s.b.toNat) }

/-- Shifts and rotates of a memory byte, of A, B and D: twice, half or arithmetic half the value, the rotates with C in the
vacated bit; C the bit shifted out, V = N xor C (ASR, ASRx, ASLx by log 1; formulae log 11). -/
def Obligations.Shifts : Prop :=
  (∀ (m : Addr) (s : State), let ea := addrEa s s.pc m; let v := s.read8 ea
    let stored := fun (i : Instr) (r : Byte) (c : Bool) => ∃ t, exec i s = .next t ∧ StoresByte s t ea r ∧
      t = { addrUpdate s m with ccr := ccrShift s r c, mem := t.mem, stale := t.stale }
    stored (.lsl m) (BitVec.ofNat 8 (2 * v.toNat)) (decide (128 ≤ v.toNat)) ∧
    stored (.asl m) (BitVec.ofNat 8 (2 * v.toNat)) (decide (128 ≤ v.toNat)) ∧
    stored (.lsr m) (BitVec.ofNat 8 (v.toNat / 2)) (decide (v.toNat % 2 = 1)) ∧
    stored (.asr m) (BitVec.ofInt 8 (v.toInt / 2)) (decide (v.toNat % 2 = 1)) ∧
    stored (.rol m) (BitVec.ofNat 8 (2 * v.toNat + s.flagC.toNat)) (decide (128 ≤ v.toNat)) ∧
    stored (.ror m) (BitVec.ofNat 8 (v.toNat / 2 + 128 * s.flagC.toNat)) (decide (v.toNat % 2 = 1))) ∧
  ∀ s : State,
    let inA := fun (i : Instr) (r : Byte) (c : Bool) => exec i s = .next { s with a := r, ccr := ccrShift s r c }
    let inB := fun (i : Instr) (r : Byte) (c : Bool) => exec i s = .next { s with b := r, ccr := ccrShift s r c }
    let inD := fun (i : Instr) (r : Word) (c : Bool) =>
      exec i s = .next { s with a := hiByte r, b := loByte r, ccr := ccrShift s r c }
    (inA .lsla (BitVec.ofNat 8 (2 * s.a.toNat)) (decide (128 ≤ s.a.toNat)) ∧
      inA .asla (BitVec.ofNat 8 (2 * s.a.toNat)) (decide (128 ≤ s.a.toNat)) ∧
      inA .lsra (BitVec.ofNat 8 (s.a.toNat / 2)) (decide (s.a.toNat % 2 = 1)) ∧
      inA .asra (BitVec.ofInt 8 (s.a.toInt / 2)) (decide (s.a.toNat % 2 = 1)) ∧
      inA .rola (BitVec.ofNat 8 (2 * s.a.toNat + s.flagC.toNat)) (decide (128 ≤ s.a.toNat)) ∧
      inA .rora (BitVec.ofNat 8 (s.a.toNat / 2 + 128 * s.flagC.toNat)) (decide (s.a.toNat % 2 = 1))) ∧
    (inB .lslb (BitVec.ofNat 8 (2 * s.b.toNat)) (decide (128 ≤ s.b.toNat)) ∧
      inB .aslb (BitVec.ofNat 8 (2 * s.b.toNat)) (decide (128 ≤ s.b.toNat)) ∧
      inB .lsrb (BitVec.ofNat 8 (s.b.toNat / 2)) (decide (s.b.toNat % 2 = 1)) ∧
      inB .asrb (BitVec.ofInt 8 (s.b.toInt / 2)) (decide (s.b.toNat % 2 = 1)) ∧
      inB .rolb (BitVec.ofNat 8 (2 * s.b.toNat + s.flagC.toNat)) (decide (128 ≤ s.b.toNat)) ∧
      inB .rorb (BitVec.ofNat 8 (s.b.toNat / 2 + 128 * s.flagC.toNat)) (decide (s.b.toNat % 2 = 1))) ∧
    inD .lsld (BitVec.ofNat 16 (2 * s.d.toNat)) (decide (32768 ≤ s.d.toNat)) ∧
    inD .asld (BitVec.ofNat 16 (2 * s.d.toNat)) (decide (32768 ≤ s.d.toNat)) ∧
    inD .lsrd (BitVec.ofNat 16 (s.d.toNat / 2)) (decide (s.d.toNat % 2 = 1))

/-- MUL, EMUL, EMULS: the exact product, C its bit 7 or 15, N and Z of the 32-bit product, V kept. EMACS: the signed product of
the two words is added to the four bytes at the operand; C is the carry out of bit 15 (MUL by log 1; flags log 36). -/
def Obligations.Multiplications : Prop :=
  (∀ s : State,
    (∃ t, exec .mul s = .next t ∧ t.d.toNat = s.a.toNat * s.b.toNat ∧
      t = { s with a := t.a, b := t.b, ccr := ccrNZVC s s.flagN s.flagZ s.flagV (t.d.getLsbD 7) }) ∧
    (∃ t, exec .emul s = .next t ∧ t.y.toNat * 65536 + t.d.toNat = s.d.toNat * s.y.toNat ∧
      t = { s with
        a := t.a, b := t.b, y := t.y
        ccr := ccrNZVC s (negative t.y) (decide (s.d.toNat * s.y.toNat = 0)) s.flagV (decide (32768 ≤ t.d.toNat)) }) ∧
    (∃ t, exec .emuls s = .next t ∧ t.y.toInt * 65536 + t.d.toNat = s.d.toInt * s.y.toInt ∧
      t = { s with
        a := t.a, b := t.b, y := t.y
        ccr := ccrNZVC s (decide (s.d.toInt * s.y.toInt < 0)) (decide (s.d.toInt * s.y.toInt = 0)) s.flagV
          (decide (32768 ≤ t.d.toNat)) })) ∧
  ∀ (hhll : Word) (s : State),
    let p := (s.read16 s.x).toInt * (s.read16 s.y).toInt
    let acc := s.read32 hhll
    let r := BitVec.ofInt 32 (acc.toInt + p)
    ∃ t, exec (.emacs hhll) s = .next t ∧ StoresLong s t hhll r ∧
      t = { s with
        ccr := ccrNZVC s (negative r) (zero r) (overflows 32 (acc.toInt + p))
          (decide ((65536 : Int) ≤ acc.toNat % 65536 + p % 65536))
        mem := t.mem
        stale := t.stale }

/-- DAA after the addition of two packed decimal bytes (with or without carry): A and C are the decimal sum, N and Z follow A.
In every state DAA changes A, N, Z, V, C alone (log 1, log 28). -/
def Obligations.DecimalAdjust : Prop :=
  (∀ (m : Byte) (s : State), packed s.a → packed m →
    ∃ t u, exec (.adca (.imm m)) s = .next t ∧ exec .daa t = .next u ∧ packed u.a ∧
      decimal u.a + 100 * u.flagC.toNat = decimal s.a + decimal m + s.flagC.toNat ∧
      u.flagN = negative u.a ∧ u.flagZ = zero u.a) ∧
  ∀ s : State, ∃ t, exec .daa s = .next t ∧ t = { s with
    a := t.a
    ccr := ccrNZVC s (negative t.a) (zero t.a) t.flagV t.flagC
    draws := t.draws }

/-- EDIV and EDIVS: quotient to Y, remainder to D, the flags, and what the two corner cases leave (log 9, 10, 35). -/
def Obligations.LongDivisions : Prop :=
  ∀ s : State,
    (∃ t, exec .ediv s = .next t ∧
      let n := s.y.toNat * 65536 + s.d.toNat; let d := s.x.toNat
      (d ≠ 0 → n / d < 65536 → t.y.toNat = n / d ∧ t.d.toNat = n % d ∧
        t = { s with a := t.a, b := t.b, y := t.y, ccr := ccrNZVC s (negative t.y) (zero t.y) false false }) ∧
      (d ≠ 0 → 65536 ≤ n / d → t = { s with
        a := t.a, b := t.b, y := t.y, draws := t.draws, ccr := ccrNZVC s t.flagN t.flagZ true false }) ∧
      (d = 0 → t = { s with draws := t.draws, ccr := ccrNZVC s t.flagN t.flagZ t.flagV true })) ∧
    (∃ t, exec .edivs s = .next t ∧
      let n := s.y.toInt * 65536 + s.d.toNat; let d := s.x.toInt; let q := n.tdiv d
      (d ≠ 0 → -32768 ≤ q → q ≤ 32767 → t.y.toInt = q ∧ t.d.toInt = n - q * d ∧
        t = { s with a := t.a, b := t.b, y := t.y, ccr := ccrNZVC s (negative t.y) (zero t.y) false false }) ∧
      (d ≠ 0 → (q < -32768 ∨ 32767 < q) → t = { s with
        a := t.a, b := t.b, y := t.y, draws := t.draws, ccr := ccrNZVC s t.flagN t.flagZ true false }) ∧
      (d = 0 → t = { s with draws := t.draws, ccr := ccrNZVC s t.flagN t.flagZ t.flagV true }))

/-- FDIV, IDIV and IDIVS: quotient to X, remainder to D, the flags, and what the corner cases leave (log 9, 10, 35). -/
def Obligations.ShortDivisions : Prop :=
  ∀ s : State,
    (∃ t, exec .fdiv s = .next t ∧
      let n := s.d.toNat; let d := s.x.toNat
      (n < d → t.x.toNat = n * 65536 / d ∧ t.d.toNat = n * 65536 % d ∧
        t = { s with a := t.a, b := t.b, x := t.x, ccr := ccrNZVC s s.flagN (zero t.x) false false }) ∧
      (d ≤ n → t = { s with
        a := t.a, b := t.b, x := 0xFFFF#16, draws := t.draws
        ccr := ccrNZVC s s.flagN false true (decide (d = 0)) })) ∧
    (∃ t, exec .idiv s = .next t ∧
      let n := s.d.toNat; let d := s.x.toNat
      (d ≠ 0 → t.x.toNat = n / d ∧ t.d.toNat = n % d ∧
        t = { s with a := t.a, b := t.b, x := t.x, ccr := ccrNZVC s s.flagN (zero t.x) false false }) ∧
      (d = 0 → t = { s with
        a := t.a, b := t.b, x := 0xFFFF#16, draws := t.draws
        ccr := ccrNZVC s s.flagN false false true })) ∧
    (∃ t, exec .idivs s = .next t ∧
      let n := s.d.toInt; let d := s.x.toInt; let q := n.tdiv d
      (d ≠ 0 → q ≤ 32767 → t.x.toInt = q ∧ t.d.toInt = n - q * d ∧
        t = { s with a := t.a, b := t.b, x := t.x, ccr := ccrNZVC s (negative t.x) (zero t.x) false false }) ∧
      (d ≠ 0 → 32767 < q → n = -32768 ∧ d = -1 ∧ t = { s with
        a := 0, b := 0, x := 0x8000#16, draws := t.draws, ccr := ccrNZVC s t.flagN t.flagZ true false }) ∧
      (d = 0 → t = { s with
        a := t.a, b := t.b, x := t.x, draws := t.draws, ccr := ccrNZVC s t.flagN t.flagZ t.flagV true }))

/-- MIN and MAX of two unsigned values, into the accumulator or into memory (always written); the flags are those of the
internal compare (MINA, MINM by log 1). -/
def Obligations.MinMax : Prop :=
  ∀ (i : Idx) (s : State),
    let ea := idxEa s s.pc i; let u := idxUpdate s i
    let m := s.read8 ea; let w := s.read16 ea
    exec (.maxa i) s = .next { u with a := if s.a.toNat < m.toNat then m else s.a, ccr := ccrSub8 s s.a m 0 } ∧
    exec (.mina i) s = .next { u with a := if m.toNat < s.a.toNat then m else s.a, ccr := ccrSub8 s s.a m 0 } ∧
    exec (.emaxd i) s = .next { u with
      a := hiByte (if s.d.toNat < w.toNat then w else s.d)
      b := loByte (if s.d.toNat < w.toNat then w else s.d)
      ccr := ccrSub16 s s.d w } ∧
    exec (.emind i) s = .next { u with
      a := hiByte (if w.toNat < s.d.toNat then w else s.d)
      b := loByte (if w.toNat < s.d.toNat then w else s.d)
      ccr := ccrSub16 s s.d w } ∧
    (∃ t, exec (.maxm i) s = .next t ∧ StoresByte s t ea (if m.toNat < s.a.toNat then s.a else m) ∧
      t = { u with ccr := ccrSub8 s s.a m 0, mem := t.mem, stale := t.stale }) ∧
    (∃ t, exec (.minm i) s = .next t ∧ StoresByte s t ea (if s.a.toNat < m.toNat then s.a else m) ∧
      t = { u with ccr := ccrSub8 s s.a m 0, mem := t.mem, stale := t.stale }) ∧
    (∃ t, exec (.emaxm i) s = .next t ∧ StoresWord s t ea (if w.toNat < s.d.toNat then s.d else w) ∧
      t = { u with ccr := ccrSub16 s s.d w, mem := t.mem, stale := t.stale }) ∧
    (∃ t, exec (.eminm i) s = .next t ∧ StoresWord s t ea (if s.d.toNat < w.toNat then s.d else w) ∧
      t = { u with ccr := ccrSub16 s s.d w, mem := t.mem, stale := t.stale })

/-- ETBL and TBL: y1 plus the fraction B / 256 of the difference, rounded down; N and Z of it, V kept, C left open (TBL by
log 1; rounding log 27). -/
def Obligations.TableInterpolation : Prop :=
  ∀ (i : Idx) (s : State), let ea := idxEa s s.pc i
    (∃ t, exec (.etbl i) s = .next t ∧
      let y1 : Int := (s.read16 ea).toNat; let y2 : Int := (s.read16 (ea + 2)).toNat
      (t.d.toNat : Int) = y1 + s.b.toNat * (y2 - y1) / 256 ∧
      t = { idxUpdate s i with
        a := t.a, b := t.b, draws := t.draws, ccr := ccrNZVC s (negative t.d) (zero t.d) s.flagV t.flagC }) ∧
    (∃ t, exec (.tbl i) s = .next t ∧
      let y1 : Int := (s.read8 ea).toNat; let y2 : Int := (s.read8 (ea + 1)).toNat
      (t.a.toNat : Int) = y1 + s.b.toNat * (y2 - y1) / 256 ∧
      t = { idxUpdate s i with
        a := t.a, draws := t.draws, ccr := ccrNZVC s (negative t.a) (zero t.a) s.flagV t.flagC })

/-! ### Operands, transfers, loads, stores, stack -/

/-- Effective addresses and register updates of every operand form, in numbers mod 2^16. -/
def Obligations.OperandForms : Prop :=
  ∀ (s : State) (pcb : Word),
    (∀ dd : Byte, (addrEa s pcb (.dir dd)).toNat = dd.toNat ∧ addrUpdate s (.dir dd) = s) ∧
    (∀ a : Word, addrEa s pcb (.ext a) = a ∧ addrUpdate s (.ext a) = s) ∧
    (∀ (r : Base) (n : BitVec 5), idxEa s pcb (.off5 r n) = BitVec.ofInt 16 ((baseVal s pcb r).toNat + n.toInt) ∧
      idxUpdate s (.off5 r n) = s) ∧
    (∀ (r : Base) (n : BitVec 9), idxEa s pcb (.off9 r n) = BitVec.ofInt 16 ((baseVal s pcb r).toNat + n.toInt) ∧
      idxUpdate s (.off9 r n) = s) ∧
    (∀ (r : Base) (n : Word), idxEa s pcb (.off16 r n) = BitVec.ofInt 16 ((baseVal s pcb r).toNat + n.toInt) ∧
      idxUpdate s (.off16 r n) = s) ∧
    (∀ r : Base,
      idxEa s pcb (.acc r .a) = BitVec.ofNat 16 ((baseVal s pcb r).toNat + s.a.toNat) ∧
      idxEa s pcb (.acc r .b) = BitVec.ofNat 16 ((baseVal s pcb r).toNat + s.b.toNat) ∧
      idxEa s pcb (.acc r .d) = BitVec.ofNat 16 ((baseVal s pcb r).toNat + s.d.toNat) ∧
      idxUpdate s (.acc r .a) = s ∧ idxUpdate s (.acc r .b) = s ∧ idxUpdate s (.acc r .d) = s) ∧
    (∀ (r : AutoReg) (n : BitVec 4),
      let old := autoVal s r
      let new := BitVec.ofInt 16 (old.toNat + (if 0 ≤ n.toInt then n.toInt + 1 else n.toInt))
      idxEa s pcb (.auto r false n) = new ∧ idxEa s pcb (.auto r true n) = old ∧
      autoVal (idxUpdate s (.auto r false n)) r = new ∧ autoVal (idxUpdate s (.auto r true n)) r = new ∧
      (∀ (p : Bool) (q : AutoReg), q ≠ r → autoVal (idxUpdate s (.auto r p n)) q = autoVal s q) ∧
      ∀ p : Bool, idxUpdate s (.auto r p n) = { s with
        x := (idxUpdate s (.auto r p n)).x
        y := (idxUpdate s (.auto r p n)).y
        sp := (idxUpdate s (.auto r p n)).sp }) ∧
    (∀ r : Base, idxEa s pcb (.indD r) = s.read16 (BitVec.ofNat 16 ((baseVal s pcb r).toNat + s.d.toNat)) ∧
      idxUpdate s (.indD r) = s) ∧
    (∀ (r : Base) (n : Word),
      idxEa s pcb (.ind16 r n) = s.read16 (BitVec.ofInt 16 ((baseVal s pcb r).toNat + n.toInt)) ∧
      idxUpdate s (.ind16 r n) = s)

/-- A 16-bit access is two byte accesses, high byte at the lower address, at any address; past the top it wraps to `$0000`,
which is a decision of the spec's and the model's choice (R58, log 38). -/
def Obligations.ByteOrder : Prop :=
  ∀ (s : State) (ea v : Word) (h l : Byte),
    (s.write16 ea v).read8 ea = BitVec.ofNat 8 (v.toNat / 256) ∧
    (s.write16 ea v).read8 (ea + 1) = BitVec.ofNat 8 v.toNat ∧
    (s.write16 ea v).read16 ea = v ∧
    (((s.write8 ea h).write8 (ea + 1) l).read16 ea).toNat = h.toNat * 256 + l.toNat

/-- A fetch sees memory where no store is in flight for the byte, else memory's byte or one of the bytes it replaced; a store
outside the eight bytes from PC on puts nothing in flight; an instruction that changes PC leaves nothing in flight (REV and REVW
stay at their own first byte); what a step leaves in flight lies in the eight bytes from the next instruction on (log 19). -/
def Obligations.FetchCoherence : Prop :=
  (∀ (s : State) (k : Nat) (ea : Word),
    (olderBytes s.stale ea.toNat = [] → fetchByte s k ea = s.read8 ea) ∧
    (fetchByte s k ea = s.read8 ea ∨ (ea.toNat, fetchByte s k ea) ∈ s.stale)) ∧
  (∀ (s : State) (ea : Word) (v : Byte), 8 ≤ (ea - s.pc).toNat → (s.write8 ea v).stale = s.stale) ∧
  (∀ (i : Instr) (s t : State), i ≠ .rev → i ≠ .revw → exec i s = .next t → t.pc ≠ s.pc → t.stale = []) ∧
  ∀ (next : Word) (t : State), settle next t = { t with stale := (settle next t).stale } ∧
    ∀ c ∈ (settle next t).stale, c ∈ t.stale ∧ (t.pc = next → (BitVec.ofNat 16 c.1 - next).toNat < 8)

/-- TSX, TSY, TXS, TYS copy; XGDX, XGDY exchange; no flag is written. -/
def Obligations.SourceTransfers : Prop :=
  ∀ s : State,
    (encode .tsx = [0xB7#8, 0x75#8] ∧ exec .tsx s = .next { s with x := s.sp }) ∧
    (encode .tsy = [0xB7#8, 0x76#8] ∧ exec .tsy s = .next { s with y := s.sp }) ∧
    (encode .txs = [0xB7#8, 0x57#8] ∧ exec .txs s = .next { s with sp := s.x }) ∧
    (encode .tys = [0xB7#8, 0x67#8] ∧ exec .tys s = .next { s with sp := s.y }) ∧
    (encode .xgdx = [0xB7#8, 0xC5#8] ∧ exec .xgdx s = .next { s with a := hiByte s.x, b := loByte s.x, x := s.d }) ∧
    (encode .xgdy = [0xB7#8, 0xC6#8] ∧ exec .xgdy s = .next { s with a := hiByte s.y, b := loByte s.y, y := s.d })

/-- TFR, SEX, EXG between registers of every size, TAB and TBA: what the destination reads, that the other registers keep
their values, and that only registers named change (mixed sizes log 17; log 1). -/
def Obligations.Transfers : Prop :=
  (∀ (p q : R8) (s : State), ∃ t, exec (.tfr (.r8 p) (.r8 q)) s = .next t ∧
    readR8 t q = (if q = .ccr then ccrLoaded s (readR8 s p) else readR8 s p) ∧
    (∀ r, r ≠ q → readR8 t r = readR8 s r) ∧ t = { s with a := t.a, b := t.b, ccr := t.ccr }) ∧
  (∀ (p : R8) (q : R16) (s : State), exec (.sex p q) s = exec (.tfr (.r8 p) (.r16 q)) s ∧
    ∃ t, exec (.sex p q) s = .next t ∧ (readR16 t q).toInt = (readR8 s p).toInt ∧
      (∀ r, r ≠ q → readR16 t r = readR16 s r) ∧
      t = { s with a := t.a, b := t.b, x := t.x, y := t.y, sp := t.sp }) ∧
  (∀ (p : R16) (q : R8) (s : State), ∃ t, exec (.tfr (.r16 p) (.r8 q)) s = .next t ∧
    readR8 t q = (if q = .ccr then ccrLoaded s (BitVec.ofNat 8 (readR16 s p).toNat)
      else BitVec.ofNat 8 (readR16 s p).toNat) ∧
    (∀ r, r ≠ q → readR8 t r = readR8 s r) ∧ t = { s with a := t.a, b := t.b, ccr := t.ccr }) ∧
  (∀ (p q : R16) (s : State), ∃ t, exec (.tfr (.r16 p) (.r16 q)) s = .next t ∧
    readR16 t q = readR16 s p ∧ (∀ r, r ≠ q → readR16 t r = readR16 s r) ∧
    t = { s with a := t.a, b := t.b, x := t.x, y := t.y, sp := t.sp }) ∧
  (∀ (p q : R8) (s : State), ∃ t, exec (.exg (.r8 p) (.r8 q)) s = .next t ∧
    readR8 t q = (if q = .ccr then ccrLoaded s (readR8 s p) else readR8 s p) ∧
    readR8 t p = (if p = .ccr then ccrLoaded s (readR8 s q) else readR8 s q) ∧
    (∀ r, r ≠ p → r ≠ q → readR8 t r = readR8 s r) ∧ t = { s with a := t.a, b := t.b, ccr := t.ccr }) ∧
  (∀ (p q : R16) (s : State), ∃ t, exec (.exg (.r16 p) (.r16 q)) s = .next t ∧
    readR16 t q = readR16 s p ∧ readR16 t p = readR16 s q ∧
    (∀ r, r ≠ p → r ≠ q → readR16 t r = readR16 s r) ∧
    t = { s with a := t.a, b := t.b, x := t.x, y := t.y, sp := t.sp }) ∧
  (∀ (p : R8) (q : R16) (s : State), ∃ t, exec (.exg (.r8 p) (.r16 q)) s = .next t ∧
    (q ≠ .d → (readR16 t q).toNat = (readR8 s p).toNat) ∧ (q = .d → p ≠ .b → t.b = readR8 s p) ∧
    (q = .d → p ≠ .a → t.a = 0) ∧ (s.flagX = false → t.flagX = false) ∧
    (∀ r, r ≠ p → (q = .d → r = .ccr) → readR8 t r = readR8 s r) ∧
    (∀ r, r ≠ .d → r ≠ q → readR16 t r = readR16 s r) ∧
    t = { s with a := t.a, b := t.b, ccr := t.ccr, x := t.x, y := t.y, sp := t.sp, draws := t.draws }) ∧
  (∀ (p : R16) (q : R8) (s : State), ∃ t, exec (.exg (.r16 p) (.r8 q)) s = .next t ∧
    readR8 t q = (if q = .ccr then ccrLoaded s (BitVec.ofNat 8 (readR16 s p).toNat)
      else BitVec.ofNat 8 (readR16 s p).toNat) ∧
    (p ≠ .d → (readR16 t p).toNat % 256 = (readR8 s q).toNat) ∧
    (p = .d → q ≠ .b → t.b = readR8 s q) ∧ (s.flagX = false → t.flagX = false) ∧
    (∀ r, r ≠ q → (p = .d → r = .ccr) → readR8 t r = readR8 s r) ∧
    (∀ r, r ≠ .d → r ≠ p → readR16 t r = readR16 s r) ∧
    t = { s with a := t.a, b := t.b, ccr := t.ccr, x := t.x, y := t.y, sp := t.sp, draws := t.draws }) ∧
  ∀ s : State, exec .tab s = .next { s with b := s.a, ccr := ccrLogic s s.a } ∧
    exec .tba s = .next { s with a := s.b, ccr := ccrLogic s s.b }

/-- LEAX, LEAY, LEAS: the destination receives the effective address, no flag is written, memory is not touched; where a
post-modified register is the destination it receives the address or the modified value (log 14). -/
def Obligations.LoadEffectiveAddress : Prop :=
  ∀ (i : Idx) (s : State), let ea := idxEa s s.pc i; let u := idxUpdate s i
    (idxPostAuto i ≠ some .x → exec (.leax i) s = .next { u with x := ea }) ∧
    (idxPostAuto i ≠ some .y → exec (.leay i) s = .next { u with y := ea }) ∧
    (idxPostAuto i ≠ some .sp → exec (.leas i) s = .next { u with sp := ea }) ∧
    (idxPostAuto i = some .x → ∃ t, exec (.leax i) s = .next t ∧ (t.x = ea ∨ t.x = u.x) ∧
      t = { s with x := t.x, draws := t.draws }) ∧
    (idxPostAuto i = some .y → ∃ t, exec (.leay i) s = .next t ∧ (t.y = ea ∨ t.y = u.y) ∧
      t = { s with y := t.y, draws := t.draws }) ∧
    (idxPostAuto i = some .sp → ∃ t, exec (.leas i) s = .next t ∧ (t.sp = ea ∨ t.sp = u.sp) ∧
      t = { s with sp := t.sp, draws := t.draws })

/-- Loads: the register receives the operand, N and Z of it, V = 0, C kept; where the operand auto-modifies the loaded
register it receives the operand or the modified value (log 1, log 14). -/
def Obligations.Loads : Prop :=
  (∀ (o : Src8) (s : State), let v := src8Val s o
    exec (.ldaa o) s = .next { src8Update s o with a := v, ccr := ccrLogic s v } ∧
    exec (.ldab o) s = .next { src8Update s o with b := v, ccr := ccrLogic s v }) ∧
  ∀ (o : Src16) (s : State), let v := src16Val s o; let u := src16Update s o
    exec (.ldd o) s = .next { u with a := hiByte v, b := loByte v, ccr := ccrLogic s v } ∧
    (src16Auto o ≠ some .x → exec (.ldx o) s = .next { u with x := v, ccr := ccrLogic s v }) ∧
    (src16Auto o ≠ some .y → exec (.ldy o) s = .next { u with y := v, ccr := ccrLogic s v }) ∧
    (src16Auto o ≠ some .sp → exec (.lds o) s = .next { u with sp := v, ccr := ccrLogic s v }) ∧
    (src16Auto o = some .x → ∃ t, exec (.ldx o) s = .next t ∧ (t.x = v ∨ t.x = u.x) ∧
      t = { s with x := t.x, ccr := ccrLogic s v, draws := t.draws }) ∧
    (src16Auto o = some .y → ∃ t, exec (.ldy o) s = .next t ∧ (t.y = v ∨ t.y = u.y) ∧
      t = { s with y := t.y, ccr := ccrLogic s v, draws := t.draws }) ∧
    (src16Auto o = some .sp → ∃ t, exec (.lds o) s = .next t ∧ (t.sp = v ∨ t.sp = u.sp) ∧
      t = { s with sp := t.sp, ccr := ccrLogic s v, draws := t.draws })

/-- Stores: the bytes stored, N and Z of the value, V = 0, C kept; where the operand auto-modifies the stored register the
old or the new value is stored (STAA, STAB, STD by log 1; log 15). -/
def Obligations.Stores : Prop :=
  ∀ (m : Addr) (s : State), let ea := addrEa s s.pc m; let u := addrUpdate s m
    let storesByte := fun (i : Instr) (v : Byte) => ∃ t, exec i s = .next t ∧ StoresByte s t ea v ∧
      t = { u with ccr := ccrLogic s v, mem := t.mem, stale := t.stale }
    let storesWord := fun (i : Instr) (v : Word) => ∃ t, exec i s = .next t ∧ StoresWord s t ea v ∧
      t = { u with ccr := ccrLogic s v, mem := t.mem, stale := t.stale }
    let storesEither := fun (i : Instr) (v w : Word) => ∃ t, exec i s = .next t ∧
      ((StoresWord s t ea v ∧ t.ccr = ccrLogic s v) ∨ (StoresWord s t ea w ∧ t.ccr = ccrLogic s w)) ∧
      t = { u with ccr := t.ccr, mem := t.mem, stale := t.stale, draws := t.draws }
    storesByte (.staa m) s.a ∧ storesByte (.stab m) s.b ∧ storesWord (.std m) s.d ∧
    (addrAuto m ≠ some .x → storesWord (.stx m) s.x) ∧ (addrAuto m ≠ some .y → storesWord (.sty m) s.y) ∧
    (addrAuto m ≠ some .sp → storesWord (.sts m) s.sp) ∧
    (addrAuto m = some .x → storesEither (.stx m) s.x u.x) ∧ (addrAuto m = some .y → storesEither (.sty m) s.y u.y) ∧
    (addrAuto m = some .sp → storesEither (.sts m) s.sp u.sp)

/-- MOVB and MOVW copy a byte or a word from the source to the destination, whose address is formed after the source's; no
flag and no register but those the two operands auto-modify changes (log 1, 13, 30). -/
def Obligations.Moves : Prop :=
  (∀ (v : Byte) (dst : Addr) (s : State), ∃ t, exec (.movb (.imm v) dst) s = .next t ∧
    StoresByte s t (moveDstEa s false dst) v ∧
    t = { moveDstUpdate s false dst with mem := t.mem, stale := t.stale }) ∧
  (∀ (m dst : Addr) (s : State), let u := trailingUpdate s m
    ∃ t, exec (.movb (.mem m) dst) s = .next t ∧
      StoresByte s t (moveDstEa u (isIdx m) dst) (s.read8 (trailingEa s m)) ∧
      t = { moveDstUpdate u (isIdx m) dst with mem := t.mem, stale := t.stale }) ∧
  (∀ (v : Word) (dst : Addr) (s : State), ∃ t, exec (.movw (.imm v) dst) s = .next t ∧
    StoresWord s t (moveDstEa s false dst) v ∧
    t = { moveDstUpdate s false dst with mem := t.mem, stale := t.stale }) ∧
  ∀ (m dst : Addr) (s : State), let u := trailingUpdate s m
    ∃ t, exec (.movw (.mem m) dst) s = .next t ∧
      StoresWord s t (moveDstEa u (isIdx m) dst) (s.read16 (trailingEa s m)) ∧
      t = { moveDstUpdate u (isIdx m) dst with mem := t.mem, stale := t.stale }

/-- The six pushes: SP moves down first, then the register is written at the new SP, high byte first; no flag. -/
def Obligations.Pushes : Prop :=
  ∀ s : State,
    let pushes8 := fun (i : Instr) (v : Byte) => ∃ t, exec i s = .next t ∧ StoresByte s t (s.sp - 1) v ∧
      t = { s with sp := s.sp - 1, mem := t.mem, stale := t.stale }
    let pushes16 := fun (i : Instr) (v : Word) => ∃ t, exec i s = .next t ∧ StoresWord s t (s.sp - 2) v ∧
      t = { s with sp := s.sp - 2, mem := t.mem, stale := t.stale }
    (encode .psha = [0x36#8] ∧ pushes8 .psha s.a) ∧ (encode .pshb = [0x37#8] ∧ pushes8 .pshb s.b) ∧
    (encode .pshc = [0x39#8] ∧ pushes8 .pshc s.ccr) ∧ (encode .pshd = [0x3B#8] ∧ pushes16 .pshd (joinBytes s.a s.b)) ∧
    (encode .pshx = [0x34#8] ∧ pushes16 .pshx s.x) ∧ (encode .pshy = [0x35#8] ∧ pushes16 .pshy s.y)

/-- The six pulls: the register is read at SP, then SP moves up; memory does not change; PULC alone writes flags, and X at
most from 1 to 0. -/
def Obligations.Pulls : Prop :=
  ∀ s : State, let v := s.read8 s.sp; let w := joinBytes (s.read8 s.sp) (s.read8 (s.sp + 1))
    (encode .pula = [0x32#8] ∧ exec .pula s = .next { s with a := v, sp := s.sp + 1 }) ∧
    (encode .pulb = [0x33#8] ∧ exec .pulb s = .next { s with b := v, sp := s.sp + 1 }) ∧
    (encode .pulc = [0x38#8] ∧ exec .pulc s = .next { s with ccr := ccrLoaded s v, sp := s.sp + 1 }) ∧
    (encode .puld = [0x3A#8] ∧
      exec .puld s = .next { s with a := v, b := s.read8 (s.sp + 1), sp := s.sp + 2 }) ∧
    (encode .pulx = [0x30#8] ∧ exec .pulx s = .next { s with x := w, sp := s.sp + 2 }) ∧
    (encode .puly = [0x31#8] ∧ exec .puly s = .next { s with y := w, sp := s.sp + 2 })

/-! ### Fuzzy logic -/

/-- MEM: the grade of A in the trapezoid at X is stored at Y, X and Y move on; S, X, I are kept, the other flags open
(log 9, log 26). -/
def Obligations.Membership : Prop :=
  ∀ s : State,
    let p1 := (s.read8 s.x).toNat; let p2 := (s.read8 (s.x + 1)).toNat
    let s1 := (s.read8 (s.x + 2)).toNat; let s2 := (s.read8 (s.x + 3)).toNat
    let t1 := if s1 = 0 then 255 else min ((s.a.toNat - p1) * s1) 255
    let t2 := if s2 = 0 then 255 else min ((p2 - s.a.toNat) * s2) 255
    let mu := if s.a.toNat < p1 ∨ p2 < s.a.toNat then 0 else min t1 t2
    ∃ t, exec .mem s = .next t ∧ StoresByte s t s.y (BitVec.ofNat 8 mu) ∧
      t = { s with
        x := s.x + 4
        y := s.y + 1
        ccr := ccrOf s.flagS s.flagX t.flagH s.flagI t.flagN t.flagZ t.flagV t.flagC
        mem := t.mem
        stale := t.stale
        draws := t.draws }

/-- One step of REV and of REVW: terminator, separator, rule input (minimum into A) and rule output (maximum into memory), with
V the side of the rule, and PC back at the instruction until the terminator (log 9, log 25). -/
def Obligations.RuleEvaluation : Prop :=
  (∀ s : State, let e := s.read8 s.x; let ea := s.y + e.zeroExtend 16
    ∃ t, exec .rev s = .next t ∧ t.x = s.x + 1 ∧
      t.ccr = ccrOf s.flagS s.flagX t.flagH s.flagI t.flagN t.flagZ t.flagV t.flagC ∧
      t = { s with
        a := t.a, x := t.x, pc := t.pc, ccr := t.ccr, mem := t.mem, stale := t.stale, draws := t.draws } ∧
      (e = 0xFF#8 → t.pc = s.pc ∧ t.a = s.a ∧ t.flagV = s.flagV ∧ StoresNothing s t) ∧
      (e ≠ 0xFF#8 → t.pc = s.pc - 2) ∧
      (e = 0xFE#8 → t.flagV = !s.flagV ∧ t.a = (if s.flagV = true then 0xFF#8 else s.a) ∧ StoresNothing s t) ∧
      (e ≠ 0xFF#8 → e ≠ 0xFE#8 → t.flagV = s.flagV) ∧
      (e ≠ 0xFF#8 → e ≠ 0xFE#8 → s.flagV = false →
        t.a.toNat = min s.a.toNat (s.read8 ea).toNat ∧ StoresNothing s t) ∧
      (e ≠ 0xFF#8 → e ≠ 0xFE#8 → s.flagV = true →
        t.a = s.a ∧ StoresByte s t ea (BitVec.ofNat 8 (max s.a.toNat (s.read8 ea).toNat)))) ∧
  ∀ s : State, let e := s.read16 s.x
    ∃ t, exec .revw s = .next t ∧ t.x = s.x + 2 ∧
      t.ccr = ccrOf s.flagS s.flagX t.flagH s.flagI t.flagN t.flagZ t.flagV s.flagC ∧
      t = { s with
        a := t.a, x := t.x, y := t.y, pc := t.pc, ccr := t.ccr, mem := t.mem, stale := t.stale, draws := t.draws } ∧
      (e = 0xFFFF#16 → t.pc = s.pc ∧ t.a = s.a ∧ t.flagV = s.flagV ∧ StoresNothing s t) ∧
      (e ≠ 0xFFFF#16 → t.pc = s.pc - 2) ∧
      (e ≠ 0xFFFE#16 → t.y = s.y) ∧
      (e = 0xFFFE#16 → t.flagV = !s.flagV ∧ StoresNothing s t ∧
        (s.flagV = true → t.a = 0xFF#8 ∧ t.y = s.y) ∧
        (s.flagV = false → s.flagC = false → t.a = s.a ∧ t.y = s.y) ∧
        (s.flagV = false → s.flagC = true →
          t.a.toNat = s.a.toNat * ((s.read8 s.y).toNat + 1) / 256 ∧ t.y = s.y + 1)) ∧
      (e ≠ 0xFFFF#16 → e ≠ 0xFFFE#16 → t.flagV = s.flagV) ∧
      (e ≠ 0xFFFF#16 → e ≠ 0xFFFE#16 → s.flagV = false →
        t.a.toNat = min s.a.toNat (s.read8 e).toNat ∧ StoresNothing s t) ∧
      (e ≠ 0xFFFF#16 → e ≠ 0xFFFE#16 → s.flagV = true →
        t.a = s.a ∧ StoresByte s t e (BitVec.ofNat 8 (max s.a.toNat (s.read8 e).toNat)))

/-- WAV with B not 0 and nothing let through: the exact sum of products in Y:D, the sum of weights in X, Z = 1, the flags H, N,
V, C open, memory untouched; wavr the same on top of the sums it pulls; with B = 0 the results are open. With a request let
through each completes in the same way, or is split after some of its elements by the highest request, or is abandoned to a
reset (log 9, log 24). -/
def Obligations.WeightedAverage : Prop :=
  (∀ s : State, candidates s = [] → s.b ≠ 0 →
    ∃ t, exec .wav s = .next t ∧
      t.y.toNat * 65536 + t.d.toNat = ((List.range s.b.toNat).map fun k =>
        (s.read8 (s.x + BitVec.ofNat 16 k)).toNat * (s.read8 (s.y + BitVec.ofNat 16 k)).toNat).sum ∧
      t.x.toNat = ((List.range s.b.toNat).map fun k => (s.read8 (s.y + BitVec.ofNat 16 k)).toNat).sum ∧
      t = { s with
        a := t.a, b := t.b, x := t.x, y := t.y, draws := t.draws,
        ccr := ccrOf s.flagS s.flagX t.flagH s.flagI t.flagN true t.flagV t.flagC }) ∧
  (∀ s : State, candidates s = [] → s.b ≠ 0 →
    ∃ t, exec .wavr s = .next t ∧
      t.x = (wavPulled s).extractLsb' 0 16 + BitVec.ofNat 16
        ((List.range s.b.toNat).map fun k => (s.read8 (s.y + BitVec.ofNat 16 k)).toNat).sum ∧
      t.yd = (wavPulled s).extractLsb' 16 32 + BitVec.ofNat 32 ((List.range s.b.toNat).map fun k =>
        (s.read8 (s.x + BitVec.ofNat 16 k)).toNat * (s.read8 (s.y + BitVec.ofNat 16 k)).toNat).sum ∧
      t = { s with
        a := t.a, b := t.b, x := t.x, y := t.y, sp := s.sp + 6, draws := t.draws,
        ccr := ccrOf s.flagS s.flagX t.flagH s.flagI t.flagN true t.flagV t.flagC }) ∧
  (∀ s : State, candidates s = [] → s.b = 0 →
    (∃ t, exec .wav s = .next t ∧ t = { s with
      a := t.a, b := t.b, x := t.x, y := t.y, draws := t.draws,
      ccr := ccrOf s.flagS s.flagX t.flagH s.flagI t.flagN t.flagZ t.flagV t.flagC }) ∧
    ∃ t, exec .wavr s = .next t ∧ t = { s with
      a := t.a, b := t.b, x := t.x, y := t.y, sp := s.sp + 6, draws := t.draws,
      ccr := ccrOf s.flagS s.flagX t.flagH s.flagI t.flagN t.flagZ t.flagV t.flagC }) ∧
  ∀ s : State, candidates s ≠ [] →
    ∃ src ∈ candidates s, (∀ r ∈ candidates s, rank r ≤ rank src) ∧
      (∃ t, exec .wav s = .next t ∧ (Averaged 0 0 s t ∨
        (isReset src = true ∧ t = { s.resetEntry (vectorOf src) with draws := t.draws }) ∨
        isReset src = false ∧ ∃ k, (s.b ≠ 0 → k < s.b.toNat) ∧ t = wavSplit src k 0 0 s)) ∧
      ∃ t, exec .wavr s = .next t ∧ let p := (wavPulled s).extractLsb' 16 32; let w := (wavPulled s).extractLsb' 0 16
        (Averaged p w { s with sp := s.sp + 6 } t ∨
        (isReset src = true ∧ t = { s.resetEntry (vectorOf src) with draws := t.draws }) ∨
        isReset src = false ∧ ∃ k, (s.b ≠ 0 → k < s.b.toNat) ∧ t = wavSplit src k p w { s with sp := s.sp + 6 })

/-- A WAV split by an interrupt after k of its elements, then RTI, then the wavr it lands on, gives the sums the whole WAV
gives, provided the stacking did not change the elements still to come (log 24). -/
def Obligations.SplitWavResumes : Prop :=
  ∀ (s : State) (src : IntSource) (k : Nat), isReset src = false → k < s.b.toNat →
    (∀ j, k ≤ j → j < s.b.toNat →
      (wavSplit src k 0 0 s).read8 (s.x + BitVec.ofNat 16 j) = s.read8 (s.x + BitVec.ofNat 16 j) ∧
      (wavSplit src k 0 0 s).read8 (s.y + BitVec.ofNat 16 j) = s.read8 (s.y + BitVec.ofNat 16 j)) →
    ∃ u, exec .rti (wavSplit src k 0 0 s) = .next u ∧ u.pc = s.pc - 1 ∧
      (candidates { u with pc := s.pc } = [] →
        ∃ v, exec .wavr { u with pc := s.pc } = .next v ∧ v.sp = s.sp ∧ v.yd = (wavFinish 0 0 s).yd ∧
          v.x = (wavFinish 0 0 s).x)
end

