-- ==== Sys2Proof/Laws/Access.lean ====
section
/-! SUPPORT. The spec's default memory denies no access, so `checked` lets every step through. -/

namespace Sys2Proof.Machine

/-- The default memory denies nothing (00_scope.md R6, D6). -/
@[simp] theorem Access.denial_eq (c : Access) : c.denial = none := by cases c <;> rfl

/-- So no list of accesses is refused. -/
@[simp] theorem firstDenial_eq (l : List Access) : firstDenial l = none := by
  induction l with
  | nil => rfl
  | cons c r ih => simp [firstDenial, ih]

/-- And every step goes through. -/
@[simp] theorem checked_eq (l : List Access) (k : Answer) : checked l k = k := by simp [checked]

end Sys2Proof.Machine
end

