-- ==== Sys2Proof/Laws/Memory.lean ====
section
/-! SUPPORT. The laws of memory: a read after a write, and that every write keeps the canonical form. -/

namespace Sys2Proof.Machine

/-! ### Reading -/

theorem Mem.read_erase (m : Mem) (n k : Nat) :
    (m.erase n).read k = if k = n then Mem.unlisted else m.read k := by
  induction m with
  | nil => simp [Mem.erase, Mem.read]
  | cons c r ih =>
    by_cases h : c.1 = n
    · by_cases hk : k = n
      · subst hk
        simpa [Mem.erase, h] using ih
      · have : c.1 ≠ k := fun e => hk (e ▸ h)
        simp [Mem.erase, Mem.read, h, ih, hk, Ne.symm hk]
    · by_cases hk : c.1 = k
      · have : k ≠ n := fun e => h (hk.trans e)
        simp [Mem.erase, Mem.read, hk, this]
      · simp [Mem.erase, Mem.read, h, hk, ih]

theorem Mem.read_insert (m : Mem) (n k : Nat) (v : Byte)
    (hn : ∀ c ∈ m, c.1 ≠ n) : (Mem.insert n v m).read k = if k = n then v else m.read k := by
  induction m with
  | nil => simp [Mem.insert, Mem.read, eq_comm]
  | cons c r ih =>
    have hc : c.1 ≠ n := hn c (by simp)
    have ih' := ih (fun d hd => hn d (by simp [hd]))
    by_cases hlt : c.1 < n
    · by_cases hk : c.1 = k
      · subst hk
        simp [Mem.insert, hlt, Mem.read, hc]
      · simp [Mem.insert, hlt, Mem.read, hk, ih']
    · simp [Mem.insert, hlt, Mem.read, eq_comm]

theorem Mem.mem_erase {m : Mem} {n : Nat} {c : Host.Cell} : c ∈ m.erase n → c ∈ m ∧ c.1 ≠ n := by
  induction m with
  | nil => simp [Mem.erase]
  | cons d r ih =>
    by_cases h : d.1 = n
    · simp only [Mem.erase, h, ↓reduceIte, List.mem_cons]
      intro hc
      exact ⟨.inr (ih hc).1, (ih hc).2⟩
    · simp only [Mem.erase, h, ↓reduceIte, List.mem_cons]
      rintro (rfl | hc)
      · exact ⟨.inl rfl, h⟩
      · exact ⟨.inr (ih hc).1, (ih hc).2⟩

/-- A read after a write of one byte, in any memory. -/
theorem Mem.read_write (m : Mem) (n k : Nat) (v : Byte) : (m.write n v).read k = if k = n then v else m.read k := by
  unfold Mem.write
  split
  · next h => rw [Mem.read_erase, h]
  · rw [Mem.read_insert _ _ _ _ (fun c hc => (Mem.mem_erase hc).2), Mem.read_erase]
    split <;> rfl

/-! ### The canonical form -/

/-- The canonical form as three facts about the list. -/
theorem Mem.wf_iff (m : Mem) :
    m.wf = true ↔ m.Pairwise (fun c d => c.1 < d.1) ∧ ∀ c ∈ m, c.1 < 0x10000 ∧ c.2 ≠ Mem.unlisted := by
  induction m with
  | nil => simp [Mem.wf]
  | cons c r ih =>
    cases r with
    | nil => simp [Mem.wf]
    | cons d r =>
      simp only [Mem.wf, Bool.and_eq_true, decide_eq_true_eq, bne_iff_ne, ih]
      constructor
      · rintro ⟨⟨h1, h2⟩, h3, h4⟩
        have hd := (h4 d (by simp)).1
        refine ⟨List.pairwise_cons.2 ⟨?_, h3⟩, ?_⟩
        · intro e he
          rcases List.mem_cons.1 he with rfl | he
          · exact h1
          · exact h1.trans ((List.pairwise_cons.1 h3).1 e he)
        · intro e he
          rcases List.mem_cons.1 he with rfl | he
          · exact ⟨by omega, h2⟩
          · exact h4 e he
      · rintro ⟨h1, h2⟩
        have h1' := List.pairwise_cons.1 h1
        exact ⟨⟨h1'.1 d (by simp), (h2 c (by simp)).2⟩, h1'.2, fun e he => h2 e (List.mem_cons_of_mem _ he)⟩

theorem Mem.pairwise_erase {m : Mem} (n : Nat) (h : m.Pairwise fun c d => c.1 < d.1) :
    (m.erase n).Pairwise fun c d => c.1 < d.1 := by
  induction m with
  | nil => simp [Mem.erase]
  | cons c r ih =>
    have h' := List.pairwise_cons.1 h
    by_cases hc : c.1 = n
    · simpa [Mem.erase, hc] using ih h'.2
    · simp only [Mem.erase, hc, ↓reduceIte, List.pairwise_cons]
      exact ⟨fun d hd => h'.1 d (Mem.mem_erase hd).1, ih h'.2⟩

theorem Mem.mem_insert {m : Mem} {n : Nat} {v : Byte} {c : Host.Cell} :
    c ∈ Mem.insert n v m → c = (n, v) ∨ c ∈ m := by
  induction m with
  | nil => simp [Mem.insert]
  | cons d r ih =>
    by_cases h : d.1 < n
    · simp only [Mem.insert, h, ↓reduceIte, List.mem_cons]
      rintro (rfl | hc)
      · exact .inr (.inl rfl)
      · rcases ih hc with h | h
        · exact .inl h
        · exact .inr (.inr h)
    · simp [Mem.insert, h]

theorem Mem.pairwise_insert {m : Mem} {n : Nat} (v : Byte) (h : m.Pairwise fun c d => c.1 < d.1)
    (hn : ∀ c ∈ m, c.1 ≠ n) : (Mem.insert n v m).Pairwise fun c d => c.1 < d.1 := by
  induction m with
  | nil => simp [Mem.insert]
  | cons c r ih =>
    have h' := List.pairwise_cons.1 h
    by_cases hc : c.1 < n
    · simp only [Mem.insert, hc, ↓reduceIte, List.pairwise_cons]
      refine ⟨fun d hd => ?_, ih h'.2 fun d hd => hn d (by simp [hd])⟩
      rcases Mem.mem_insert hd with rfl | hd
      · exact hc
      · exact h'.1 d hd
    · have hgt : n < c.1 := by have := hn c (by simp); omega
      simp only [Mem.insert, hc, ↓reduceIte]
      refine List.pairwise_cons.2 ⟨fun d hd => ?_, h⟩
      rcases List.mem_cons.1 hd with rfl | hd
      · exact hgt
      · exact hgt.trans (h'.1 d hd)

/-- A write inside the address space keeps the canonical form. -/
theorem Mem.wf_write {m : Mem} {n : Nat} (v : Byte) (hn : n < 0x10000) (h : m.wf = true) : (m.write n v).wf = true := by
  rw [Mem.wf_iff] at *
  unfold Mem.write
  split
  · exact ⟨Mem.pairwise_erase n h.1, fun c hc => h.2 c (Mem.mem_erase hc).1⟩
  · next hv =>
    refine ⟨Mem.pairwise_insert v (Mem.pairwise_erase n h.1) fun c hc => (Mem.mem_erase hc).2, fun c hc => ?_⟩
    rcases Mem.mem_insert hc with rfl | hc
    · exact ⟨hn, hv⟩
    · exact h.2 c (Mem.mem_erase hc).1

/-! ### Bytes of the state -/

/-- The default page map is the identity (20_memory.md R64). -/
@[simp] theorem pageMap_eq (page : Byte) (a : Word) : Config.pageMap page a = a.toNat := rfl

/-- One byte after a store of one byte. -/
theorem State.read8_write8 (s : State) (a b : Word) (v : Byte) :
    (s.write8 a v).read8 b = if b = a then v else s.read8 b := by
  simp only [State.read8, State.write8, Mem.read_write, pageMap_eq]
  by_cases h : b = a
  · simp [h]
  · have : b.toNat ≠ a.toNat := fun e => h (BitVec.eq_of_toNat_eq e)
    simp [h, this]

/-- One byte after a store of one word: the high byte lies at `a`, the low byte after it. -/
theorem State.read8_write16 (s : State) (a b : Word) (v : Word) :
    (s.write16 a v).read8 b = if b = a then hiByte v else if b = a + 1 then loByte v else s.read8 b := by
  simp only [State.write16, State.read8_write8]
  by_cases h : b = a
  · subst h
    simp
  · simp [h]

/-- Reading depends on memory alone. -/
theorem State.read8_congr {s t : State} (h : t.mem = s.mem) (b : Word) : t.read8 b = s.read8 b := by
  simp [State.read8, h]

/-- So is reading a word; at the default page map PPAGE plays no part. -/
theorem State.read16_congr {s t : State} (h : t.mem = s.mem) (a : Word) : t.read16 a = s.read16 a := by
  simp [State.read16, State.read8_congr h]

/-- A reset at the default page map: the reset state over the old memory, PC the word at the vector. -/
theorem State.resetEntry_eq (s : State) (vector : Word) : s.resetEntry vector =
    { State.reset with mem := s.mem, pc := s.read16 vector, requests := s.requests, draws := s.draws } := rfl

/-- A store of one byte keeps the canonical form. -/
theorem State.wf_write8 {s : State} (a : Word) (v : Byte) (h : s.mem.wf = true) : (s.write8 a v).mem.wf = true :=
  Mem.wf_write v a.isLt h

/-- A store of one word keeps the canonical form. -/
theorem State.wf_write16 {s : State} (a v : Word) (h : s.mem.wf = true) : (s.write16 a v).mem.wf = true :=
  State.wf_write8 _ _ (State.wf_write8 _ _ h)

/-- A store of four bytes keeps the canonical form. -/
theorem State.wf_write32 {s : State} (a : Word) (v : BitVec 32) (h : s.mem.wf = true) :
    (s.write32 a v).mem.wf = true :=
  State.wf_write16 _ _ (State.wf_write16 _ _ h)

/-- A push of one byte keeps the canonical form. -/
theorem State.wf_push8 {s : State} (v : Byte) (h : s.mem.wf = true) : (s.push8 v).mem.wf = true :=
  State.wf_write8 (s := { s with sp := s.sp - 1 }) _ _ h

/-- A push of one word keeps the canonical form. -/
theorem State.wf_push16 {s : State} (v : Word) (h : s.mem.wf = true) : (s.push16 v).mem.wf = true :=
  State.wf_write16 (s := { s with sp := s.sp - 2 }) _ _ h

/-- Stacking a frame keeps the canonical form. -/
theorem State.wf_stackFrame {s : State} (rtn : Word) (h : s.mem.wf = true) : (s.stackFrame rtn).mem.wf = true :=
  wf_push8 _ (wf_push8 _ (wf_push8 _ (wf_push16 _ (wf_push16 _ (wf_push16 _ h)))))

/-- The high byte of two joined bytes. -/
@[simp] theorem hiByte_joinBytes (h l : Byte) : hiByte (joinBytes h l) = h := by
  apply BitVec.eq_of_getLsbD_eq
  intro i hi
  have e := BitVec.getLsbD_append (x := h) (y := l) (i := 8 + i)
  simpa [hiByte, joinBytes, hi] using e

/-- The low byte of two joined bytes. -/
@[simp] theorem loByte_joinBytes (h l : Byte) : loByte (joinBytes h l) = l := by
  apply BitVec.eq_of_getLsbD_eq
  intro i hi
  have e := BitVec.getLsbD_append (x := h) (y := l) (i := i)
  simpa [loByte, joinBytes, hi] using e

/-- A word is its two bytes. -/
@[simp] theorem joinBytes_hiByte_loByte (w : Word) : joinBytes (hiByte w) (loByte w) = w := by
  apply BitVec.eq_of_getLsbD_eq
  intro i hi
  simp only [hiByte, loByte, joinBytes, BitVec.getLsbD_append, BitVec.getLsbD_extractLsb']
  by_cases h : i < 8
  · simp [h]
  · have : 8 + (i - 8) = i := by omega
    have h2 : i - 8 < 8 := by omega
    simp [h, h2, this]

end Sys2Proof.Machine
end

