-- ==== Sys2Proof/Laws/State.lean ====
section
/-! SUPPORT. What each update leaves in each field: one lemma per field and update, so that no proof unfolds a record update. -/

namespace Sys2Proof.Machine

variable (s : State)

/-! `spend` -/

@[simp] theorem State.spend_a (k : Nat) : (s.spend k).a = s.a := rfl
@[simp] theorem State.spend_b (k : Nat) : (s.spend k).b = s.b := rfl
@[simp] theorem State.spend_x (k : Nat) : (s.spend k).x = s.x := rfl
@[simp] theorem State.spend_y (k : Nat) : (s.spend k).y = s.y := rfl
@[simp] theorem State.spend_sp (k : Nat) : (s.spend k).sp = s.sp := rfl
@[simp] theorem State.spend_pc (k : Nat) : (s.spend k).pc = s.pc := rfl
@[simp] theorem State.spend_ccr (k : Nat) : (s.spend k).ccr = s.ccr := rfl
@[simp] theorem State.spend_ppage (k : Nat) : (s.spend k).ppage = s.ppage := rfl
@[simp] theorem State.spend_mem (k : Nat) : (s.spend k).mem = s.mem := rfl
@[simp] theorem State.spend_run (k : Nat) : (s.spend k).run = s.run := rfl
@[simp] theorem State.spend_requests (k : Nat) : (s.spend k).requests = s.requests := rfl
@[simp] theorem State.spend_stale (k : Nat) : (s.spend k).stale = s.stale := rfl

/-! `freeFlags` -/

@[simp] theorem State.freeFlags_a (mask : Byte) : (s.freeFlags mask).a = s.a := rfl
@[simp] theorem State.freeFlags_b (mask : Byte) : (s.freeFlags mask).b = s.b := rfl
@[simp] theorem State.freeFlags_x (mask : Byte) : (s.freeFlags mask).x = s.x := rfl
@[simp] theorem State.freeFlags_y (mask : Byte) : (s.freeFlags mask).y = s.y := rfl
@[simp] theorem State.freeFlags_sp (mask : Byte) : (s.freeFlags mask).sp = s.sp := rfl
@[simp] theorem State.freeFlags_pc (mask : Byte) : (s.freeFlags mask).pc = s.pc := rfl
@[simp] theorem State.freeFlags_ppage (mask : Byte) : (s.freeFlags mask).ppage = s.ppage := rfl
@[simp] theorem State.freeFlags_mem (mask : Byte) : (s.freeFlags mask).mem = s.mem := rfl
@[simp] theorem State.freeFlags_run (mask : Byte) : (s.freeFlags mask).run = s.run := rfl
@[simp] theorem State.freeFlags_requests (mask : Byte) : (s.freeFlags mask).requests = s.requests := rfl
@[simp] theorem State.freeFlags_stale (mask : Byte) : (s.freeFlags mask).stale = s.stale := rfl
@[simp] theorem State.freeFlags_draws (mask : Byte) : (s.freeFlags mask).draws = s.draws := rfl

/-! `write8` -/

@[simp] theorem State.write8_a (ea : Word) (v : Byte) : (s.write8 ea v).a = s.a := rfl
@[simp] theorem State.write8_b (ea : Word) (v : Byte) : (s.write8 ea v).b = s.b := rfl
@[simp] theorem State.write8_x (ea : Word) (v : Byte) : (s.write8 ea v).x = s.x := rfl
@[simp] theorem State.write8_y (ea : Word) (v : Byte) : (s.write8 ea v).y = s.y := rfl
@[simp] theorem State.write8_sp (ea : Word) (v : Byte) : (s.write8 ea v).sp = s.sp := rfl
@[simp] theorem State.write8_pc (ea : Word) (v : Byte) : (s.write8 ea v).pc = s.pc := rfl
@[simp] theorem State.write8_ccr (ea : Word) (v : Byte) : (s.write8 ea v).ccr = s.ccr := rfl
@[simp] theorem State.write8_ppage (ea : Word) (v : Byte) : (s.write8 ea v).ppage = s.ppage := rfl
@[simp] theorem State.write8_run (ea : Word) (v : Byte) : (s.write8 ea v).run = s.run := rfl
@[simp] theorem State.write8_requests (ea : Word) (v : Byte) : (s.write8 ea v).requests = s.requests := rfl
@[simp] theorem State.write8_draws (ea : Word) (v : Byte) : (s.write8 ea v).draws = s.draws := rfl

/-! `write16` -/

@[simp] theorem State.write16_a (ea v : Word) : (s.write16 ea v).a = s.a := rfl
@[simp] theorem State.write16_b (ea v : Word) : (s.write16 ea v).b = s.b := rfl
@[simp] theorem State.write16_x (ea v : Word) : (s.write16 ea v).x = s.x := rfl
@[simp] theorem State.write16_y (ea v : Word) : (s.write16 ea v).y = s.y := rfl
@[simp] theorem State.write16_sp (ea v : Word) : (s.write16 ea v).sp = s.sp := rfl
@[simp] theorem State.write16_pc (ea v : Word) : (s.write16 ea v).pc = s.pc := rfl
@[simp] theorem State.write16_ccr (ea v : Word) : (s.write16 ea v).ccr = s.ccr := rfl
@[simp] theorem State.write16_ppage (ea v : Word) : (s.write16 ea v).ppage = s.ppage := rfl
@[simp] theorem State.write16_run (ea v : Word) : (s.write16 ea v).run = s.run := rfl
@[simp] theorem State.write16_requests (ea v : Word) : (s.write16 ea v).requests = s.requests := rfl
@[simp] theorem State.write16_draws (ea v : Word) : (s.write16 ea v).draws = s.draws := rfl

/-! `write32` -/

@[simp] theorem State.write32_a (ea : Word) (v : BitVec 32) : (s.write32 ea v).a = s.a := by simp only [State.write32, State.write16_a]
@[simp] theorem State.write32_b (ea : Word) (v : BitVec 32) : (s.write32 ea v).b = s.b := by simp only [State.write32, State.write16_b]
@[simp] theorem State.write32_x (ea : Word) (v : BitVec 32) : (s.write32 ea v).x = s.x := by simp only [State.write32, State.write16_x]
@[simp] theorem State.write32_y (ea : Word) (v : BitVec 32) : (s.write32 ea v).y = s.y := by simp only [State.write32, State.write16_y]
@[simp] theorem State.write32_sp (ea : Word) (v : BitVec 32) : (s.write32 ea v).sp = s.sp := by simp only [State.write32, State.write16_sp]
@[simp] theorem State.write32_pc (ea : Word) (v : BitVec 32) : (s.write32 ea v).pc = s.pc := by simp only [State.write32, State.write16_pc]
@[simp] theorem State.write32_ccr (ea : Word) (v : BitVec 32) : (s.write32 ea v).ccr = s.ccr := by simp only [State.write32, State.write16_ccr]
@[simp] theorem State.write32_ppage (ea : Word) (v : BitVec 32) : (s.write32 ea v).ppage = s.ppage := by simp only [State.write32, State.write16_ppage]
@[simp] theorem State.write32_run (ea : Word) (v : BitVec 32) : (s.write32 ea v).run = s.run := by simp only [State.write32, State.write16_run]
@[simp] theorem State.write32_requests (ea : Word) (v : BitVec 32) : (s.write32 ea v).requests = s.requests := by simp only [State.write32, State.write16_requests]
@[simp] theorem State.write32_draws (ea : Word) (v : BitVec 32) : (s.write32 ea v).draws = s.draws := by simp only [State.write32, State.write16_draws]

/-! `setD` -/

@[simp] theorem State.setD_x (v : Word) : (s.setD v).x = s.x := rfl
@[simp] theorem State.setD_y (v : Word) : (s.setD v).y = s.y := rfl
@[simp] theorem State.setD_sp (v : Word) : (s.setD v).sp = s.sp := rfl
@[simp] theorem State.setD_pc (v : Word) : (s.setD v).pc = s.pc := rfl
@[simp] theorem State.setD_ccr (v : Word) : (s.setD v).ccr = s.ccr := rfl
@[simp] theorem State.setD_ppage (v : Word) : (s.setD v).ppage = s.ppage := rfl
@[simp] theorem State.setD_mem (v : Word) : (s.setD v).mem = s.mem := rfl
@[simp] theorem State.setD_run (v : Word) : (s.setD v).run = s.run := rfl
@[simp] theorem State.setD_requests (v : Word) : (s.setD v).requests = s.requests := rfl
@[simp] theorem State.setD_stale (v : Word) : (s.setD v).stale = s.stale := rfl
@[simp] theorem State.setD_draws (v : Word) : (s.setD v).draws = s.draws := rfl

/-! `setYD` -/

@[simp] theorem State.setYD_x (v : BitVec 32) : (s.setYD v).x = s.x := rfl
@[simp] theorem State.setYD_sp (v : BitVec 32) : (s.setYD v).sp = s.sp := rfl
@[simp] theorem State.setYD_pc (v : BitVec 32) : (s.setYD v).pc = s.pc := rfl
@[simp] theorem State.setYD_ccr (v : BitVec 32) : (s.setYD v).ccr = s.ccr := rfl
@[simp] theorem State.setYD_ppage (v : BitVec 32) : (s.setYD v).ppage = s.ppage := rfl
@[simp] theorem State.setYD_mem (v : BitVec 32) : (s.setYD v).mem = s.mem := rfl
@[simp] theorem State.setYD_run (v : BitVec 32) : (s.setYD v).run = s.run := rfl
@[simp] theorem State.setYD_requests (v : BitVec 32) : (s.setYD v).requests = s.requests := rfl
@[simp] theorem State.setYD_stale (v : BitVec 32) : (s.setYD v).stale = s.stale := rfl
@[simp] theorem State.setYD_draws (v : BitVec 32) : (s.setYD v).draws = s.draws := rfl

/-! `push8` -/

@[simp] theorem State.push8_a (v : Byte) : (s.push8 v).a = s.a := rfl
@[simp] theorem State.push8_b (v : Byte) : (s.push8 v).b = s.b := rfl
@[simp] theorem State.push8_x (v : Byte) : (s.push8 v).x = s.x := rfl
@[simp] theorem State.push8_y (v : Byte) : (s.push8 v).y = s.y := rfl
@[simp] theorem State.push8_pc (v : Byte) : (s.push8 v).pc = s.pc := rfl
@[simp] theorem State.push8_ccr (v : Byte) : (s.push8 v).ccr = s.ccr := rfl
@[simp] theorem State.push8_ppage (v : Byte) : (s.push8 v).ppage = s.ppage := rfl
@[simp] theorem State.push8_run (v : Byte) : (s.push8 v).run = s.run := rfl
@[simp] theorem State.push8_requests (v : Byte) : (s.push8 v).requests = s.requests := rfl
@[simp] theorem State.push8_draws (v : Byte) : (s.push8 v).draws = s.draws := rfl

/-! `push16` -/

@[simp] theorem State.push16_a (v : Word) : (s.push16 v).a = s.a := by simp only [State.push16, State.write16_a]
@[simp] theorem State.push16_b (v : Word) : (s.push16 v).b = s.b := by simp only [State.push16, State.write16_b]
@[simp] theorem State.push16_x (v : Word) : (s.push16 v).x = s.x := by simp only [State.push16, State.write16_x]
@[simp] theorem State.push16_y (v : Word) : (s.push16 v).y = s.y := by simp only [State.push16, State.write16_y]
@[simp] theorem State.push16_pc (v : Word) : (s.push16 v).pc = s.pc := by simp only [State.push16, State.write16_pc]
@[simp] theorem State.push16_ccr (v : Word) : (s.push16 v).ccr = s.ccr := by simp only [State.push16, State.write16_ccr]
@[simp] theorem State.push16_ppage (v : Word) : (s.push16 v).ppage = s.ppage := by simp only [State.push16, State.write16_ppage]
@[simp] theorem State.push16_run (v : Word) : (s.push16 v).run = s.run := by simp only [State.push16, State.write16_run]
@[simp] theorem State.push16_requests (v : Word) : (s.push16 v).requests = s.requests := by simp only [State.push16, State.write16_requests]
@[simp] theorem State.push16_draws (v : Word) : (s.push16 v).draws = s.draws := by simp only [State.push16, State.write16_draws]

/-! `drop` -/

@[simp] theorem State.drop_a (k : Word) : (s.drop k).a = s.a := rfl
@[simp] theorem State.drop_b (k : Word) : (s.drop k).b = s.b := rfl
@[simp] theorem State.drop_x (k : Word) : (s.drop k).x = s.x := rfl
@[simp] theorem State.drop_y (k : Word) : (s.drop k).y = s.y := rfl
@[simp] theorem State.drop_pc (k : Word) : (s.drop k).pc = s.pc := rfl
@[simp] theorem State.drop_ccr (k : Word) : (s.drop k).ccr = s.ccr := rfl
@[simp] theorem State.drop_ppage (k : Word) : (s.drop k).ppage = s.ppage := rfl
@[simp] theorem State.drop_mem (k : Word) : (s.drop k).mem = s.mem := rfl
@[simp] theorem State.drop_run (k : Word) : (s.drop k).run = s.run := rfl
@[simp] theorem State.drop_requests (k : Word) : (s.drop k).requests = s.requests := rfl
@[simp] theorem State.drop_stale (k : Word) : (s.drop k).stale = s.stale := rfl
@[simp] theorem State.drop_draws (k : Word) : (s.drop k).draws = s.draws := rfl

/-! `stackFrame` -/

@[simp] theorem State.stackFrame_a (rtn : Word) : (s.stackFrame rtn).a = s.a := by
  simp only [State.stackFrame, State.push8_a, State.push16_a]
@[simp] theorem State.stackFrame_b (rtn : Word) : (s.stackFrame rtn).b = s.b := by
  simp only [State.stackFrame, State.push8_b, State.push16_b]
@[simp] theorem State.stackFrame_x (rtn : Word) : (s.stackFrame rtn).x = s.x := by
  simp only [State.stackFrame, State.push8_x, State.push16_x]
@[simp] theorem State.stackFrame_y (rtn : Word) : (s.stackFrame rtn).y = s.y := by
  simp only [State.stackFrame, State.push8_y, State.push16_y]
@[simp] theorem State.stackFrame_pc (rtn : Word) : (s.stackFrame rtn).pc = s.pc := by
  simp only [State.stackFrame, State.push8_pc, State.push16_pc]
@[simp] theorem State.stackFrame_ccr (rtn : Word) : (s.stackFrame rtn).ccr = s.ccr := by
  simp only [State.stackFrame, State.push8_ccr, State.push16_ccr]
@[simp] theorem State.stackFrame_ppage (rtn : Word) : (s.stackFrame rtn).ppage = s.ppage := by
  simp only [State.stackFrame, State.push8_ppage, State.push16_ppage]
@[simp] theorem State.stackFrame_run (rtn : Word) : (s.stackFrame rtn).run = s.run := by
  simp only [State.stackFrame, State.push8_run, State.push16_run]
@[simp] theorem State.stackFrame_requests (rtn : Word) : (s.stackFrame rtn).requests = s.requests := by
  simp only [State.stackFrame, State.push8_requests, State.push16_requests]
@[simp] theorem State.stackFrame_draws (rtn : Word) : (s.stackFrame rtn).draws = s.draws := by
  simp only [State.stackFrame, State.push8_draws, State.push16_draws]

/-! `setHNZVC` -/

@[simp] theorem State.setHNZVC_a (h n z v c : Bool) : (s.setHNZVC h n z v c).a = s.a := rfl
@[simp] theorem State.setHNZVC_b (h n z v c : Bool) : (s.setHNZVC h n z v c).b = s.b := rfl
@[simp] theorem State.setHNZVC_x (h n z v c : Bool) : (s.setHNZVC h n z v c).x = s.x := rfl
@[simp] theorem State.setHNZVC_y (h n z v c : Bool) : (s.setHNZVC h n z v c).y = s.y := rfl
@[simp] theorem State.setHNZVC_sp (h n z v c : Bool) : (s.setHNZVC h n z v c).sp = s.sp := rfl
@[simp] theorem State.setHNZVC_pc (h n z v c : Bool) : (s.setHNZVC h n z v c).pc = s.pc := rfl
@[simp] theorem State.setHNZVC_ppage (h n z v c : Bool) : (s.setHNZVC h n z v c).ppage = s.ppage := rfl
@[simp] theorem State.setHNZVC_mem (h n z v c : Bool) : (s.setHNZVC h n z v c).mem = s.mem := rfl
@[simp] theorem State.setHNZVC_run (h n z v c : Bool) : (s.setHNZVC h n z v c).run = s.run := rfl
@[simp] theorem State.setHNZVC_requests (h n z v c : Bool) : (s.setHNZVC h n z v c).requests = s.requests := rfl
@[simp] theorem State.setHNZVC_stale (h n z v c : Bool) : (s.setHNZVC h n z v c).stale = s.stale := rfl
@[simp] theorem State.setHNZVC_draws (h n z v c : Bool) : (s.setHNZVC h n z v c).draws = s.draws := rfl

/-! `setNZVC` -/

@[simp] theorem State.setNZVC_a (n z v c : Bool) : (s.setNZVC n z v c).a = s.a := rfl
@[simp] theorem State.setNZVC_b (n z v c : Bool) : (s.setNZVC n z v c).b = s.b := rfl
@[simp] theorem State.setNZVC_x (n z v c : Bool) : (s.setNZVC n z v c).x = s.x := rfl
@[simp] theorem State.setNZVC_y (n z v c : Bool) : (s.setNZVC n z v c).y = s.y := rfl
@[simp] theorem State.setNZVC_sp (n z v c : Bool) : (s.setNZVC n z v c).sp = s.sp := rfl
@[simp] theorem State.setNZVC_pc (n z v c : Bool) : (s.setNZVC n z v c).pc = s.pc := rfl
@[simp] theorem State.setNZVC_ppage (n z v c : Bool) : (s.setNZVC n z v c).ppage = s.ppage := rfl
@[simp] theorem State.setNZVC_mem (n z v c : Bool) : (s.setNZVC n z v c).mem = s.mem := rfl
@[simp] theorem State.setNZVC_run (n z v c : Bool) : (s.setNZVC n z v c).run = s.run := rfl
@[simp] theorem State.setNZVC_requests (n z v c : Bool) : (s.setNZVC n z v c).requests = s.requests := rfl
@[simp] theorem State.setNZVC_stale (n z v c : Bool) : (s.setNZVC n z v c).stale = s.stale := rfl
@[simp] theorem State.setNZVC_draws (n z v c : Bool) : (s.setNZVC n z v c).draws = s.draws := rfl

/-! `setNZV` -/

@[simp] theorem State.setNZV_a (n z v : Bool) : (s.setNZV n z v).a = s.a := rfl
@[simp] theorem State.setNZV_b (n z v : Bool) : (s.setNZV n z v).b = s.b := rfl
@[simp] theorem State.setNZV_x (n z v : Bool) : (s.setNZV n z v).x = s.x := rfl
@[simp] theorem State.setNZV_y (n z v : Bool) : (s.setNZV n z v).y = s.y := rfl
@[simp] theorem State.setNZV_sp (n z v : Bool) : (s.setNZV n z v).sp = s.sp := rfl
@[simp] theorem State.setNZV_pc (n z v : Bool) : (s.setNZV n z v).pc = s.pc := rfl
@[simp] theorem State.setNZV_ppage (n z v : Bool) : (s.setNZV n z v).ppage = s.ppage := rfl
@[simp] theorem State.setNZV_mem (n z v : Bool) : (s.setNZV n z v).mem = s.mem := rfl
@[simp] theorem State.setNZV_run (n z v : Bool) : (s.setNZV n z v).run = s.run := rfl
@[simp] theorem State.setNZV_requests (n z v : Bool) : (s.setNZV n z v).requests = s.requests := rfl
@[simp] theorem State.setNZV_stale (n z v : Bool) : (s.setNZV n z v).stale = s.stale := rfl
@[simp] theorem State.setNZV_draws (n z v : Bool) : (s.setNZV n z v).draws = s.draws := rfl

/-! `setNZC` -/

@[simp] theorem State.setNZC_a (n z c : Bool) : (s.setNZC n z c).a = s.a := rfl
@[simp] theorem State.setNZC_b (n z c : Bool) : (s.setNZC n z c).b = s.b := rfl
@[simp] theorem State.setNZC_x (n z c : Bool) : (s.setNZC n z c).x = s.x := rfl
@[simp] theorem State.setNZC_y (n z c : Bool) : (s.setNZC n z c).y = s.y := rfl
@[simp] theorem State.setNZC_sp (n z c : Bool) : (s.setNZC n z c).sp = s.sp := rfl
@[simp] theorem State.setNZC_pc (n z c : Bool) : (s.setNZC n z c).pc = s.pc := rfl
@[simp] theorem State.setNZC_ppage (n z c : Bool) : (s.setNZC n z c).ppage = s.ppage := rfl
@[simp] theorem State.setNZC_mem (n z c : Bool) : (s.setNZC n z c).mem = s.mem := rfl
@[simp] theorem State.setNZC_run (n z c : Bool) : (s.setNZC n z c).run = s.run := rfl
@[simp] theorem State.setNZC_requests (n z c : Bool) : (s.setNZC n z c).requests = s.requests := rfl
@[simp] theorem State.setNZC_stale (n z c : Bool) : (s.setNZC n z c).stale = s.stale := rfl
@[simp] theorem State.setNZC_draws (n z c : Bool) : (s.setNZC n z c).draws = s.draws := rfl

/-! `setZVC` -/

@[simp] theorem State.setZVC_a (z v c : Bool) : (s.setZVC z v c).a = s.a := rfl
@[simp] theorem State.setZVC_b (z v c : Bool) : (s.setZVC z v c).b = s.b := rfl
@[simp] theorem State.setZVC_x (z v c : Bool) : (s.setZVC z v c).x = s.x := rfl
@[simp] theorem State.setZVC_y (z v c : Bool) : (s.setZVC z v c).y = s.y := rfl
@[simp] theorem State.setZVC_sp (z v c : Bool) : (s.setZVC z v c).sp = s.sp := rfl
@[simp] theorem State.setZVC_pc (z v c : Bool) : (s.setZVC z v c).pc = s.pc := rfl
@[simp] theorem State.setZVC_ppage (z v c : Bool) : (s.setZVC z v c).ppage = s.ppage := rfl
@[simp] theorem State.setZVC_mem (z v c : Bool) : (s.setZVC z v c).mem = s.mem := rfl
@[simp] theorem State.setZVC_run (z v c : Bool) : (s.setZVC z v c).run = s.run := rfl
@[simp] theorem State.setZVC_requests (z v c : Bool) : (s.setZVC z v c).requests = s.requests := rfl
@[simp] theorem State.setZVC_stale (z v c : Bool) : (s.setZVC z v c).stale = s.stale := rfl
@[simp] theorem State.setZVC_draws (z v c : Bool) : (s.setZVC z v c).draws = s.draws := rfl

/-! `setZ` -/

@[simp] theorem State.setZ_a (z : Bool) : (s.setZ z).a = s.a := rfl
@[simp] theorem State.setZ_b (z : Bool) : (s.setZ z).b = s.b := rfl
@[simp] theorem State.setZ_x (z : Bool) : (s.setZ z).x = s.x := rfl
@[simp] theorem State.setZ_y (z : Bool) : (s.setZ z).y = s.y := rfl
@[simp] theorem State.setZ_sp (z : Bool) : (s.setZ z).sp = s.sp := rfl
@[simp] theorem State.setZ_pc (z : Bool) : (s.setZ z).pc = s.pc := rfl
@[simp] theorem State.setZ_ppage (z : Bool) : (s.setZ z).ppage = s.ppage := rfl
@[simp] theorem State.setZ_mem (z : Bool) : (s.setZ z).mem = s.mem := rfl
@[simp] theorem State.setZ_run (z : Bool) : (s.setZ z).run = s.run := rfl
@[simp] theorem State.setZ_requests (z : Bool) : (s.setZ z).requests = s.requests := rfl
@[simp] theorem State.setZ_stale (z : Bool) : (s.setZ z).stale = s.stale := rfl
@[simp] theorem State.setZ_draws (z : Bool) : (s.setZ z).draws = s.draws := rfl

/-! `setV` -/

@[simp] theorem State.setV_a (v : Bool) : (s.setV v).a = s.a := rfl
@[simp] theorem State.setV_b (v : Bool) : (s.setV v).b = s.b := rfl
@[simp] theorem State.setV_x (v : Bool) : (s.setV v).x = s.x := rfl
@[simp] theorem State.setV_y (v : Bool) : (s.setV v).y = s.y := rfl
@[simp] theorem State.setV_sp (v : Bool) : (s.setV v).sp = s.sp := rfl
@[simp] theorem State.setV_pc (v : Bool) : (s.setV v).pc = s.pc := rfl
@[simp] theorem State.setV_ppage (v : Bool) : (s.setV v).ppage = s.ppage := rfl
@[simp] theorem State.setV_mem (v : Bool) : (s.setV v).mem = s.mem := rfl
@[simp] theorem State.setV_run (v : Bool) : (s.setV v).run = s.run := rfl
@[simp] theorem State.setV_requests (v : Bool) : (s.setV v).requests = s.requests := rfl
@[simp] theorem State.setV_stale (v : Bool) : (s.setV v).stale = s.stale := rfl
@[simp] theorem State.setV_draws (v : Bool) : (s.setV v).draws = s.draws := rfl

/-! `setC` -/

@[simp] theorem State.setC_a (c : Bool) : (s.setC c).a = s.a := rfl
@[simp] theorem State.setC_b (c : Bool) : (s.setC c).b = s.b := rfl
@[simp] theorem State.setC_x (c : Bool) : (s.setC c).x = s.x := rfl
@[simp] theorem State.setC_y (c : Bool) : (s.setC c).y = s.y := rfl
@[simp] theorem State.setC_sp (c : Bool) : (s.setC c).sp = s.sp := rfl
@[simp] theorem State.setC_pc (c : Bool) : (s.setC c).pc = s.pc := rfl
@[simp] theorem State.setC_ppage (c : Bool) : (s.setC c).ppage = s.ppage := rfl
@[simp] theorem State.setC_mem (c : Bool) : (s.setC c).mem = s.mem := rfl
@[simp] theorem State.setC_run (c : Bool) : (s.setC c).run = s.run := rfl
@[simp] theorem State.setC_requests (c : Bool) : (s.setC c).requests = s.requests := rfl
@[simp] theorem State.setC_stale (c : Bool) : (s.setC c).stale = s.stale := rfl
@[simp] theorem State.setC_draws (c : Bool) : (s.setC c).draws = s.draws := rfl

/-! `setIMask` -/

@[simp] theorem State.setIMask_a (i : Bool) : (s.setIMask i).a = s.a := rfl
@[simp] theorem State.setIMask_b (i : Bool) : (s.setIMask i).b = s.b := rfl
@[simp] theorem State.setIMask_x (i : Bool) : (s.setIMask i).x = s.x := rfl
@[simp] theorem State.setIMask_y (i : Bool) : (s.setIMask i).y = s.y := rfl
@[simp] theorem State.setIMask_sp (i : Bool) : (s.setIMask i).sp = s.sp := rfl
@[simp] theorem State.setIMask_pc (i : Bool) : (s.setIMask i).pc = s.pc := rfl
@[simp] theorem State.setIMask_ppage (i : Bool) : (s.setIMask i).ppage = s.ppage := rfl
@[simp] theorem State.setIMask_mem (i : Bool) : (s.setIMask i).mem = s.mem := rfl
@[simp] theorem State.setIMask_run (i : Bool) : (s.setIMask i).run = s.run := rfl
@[simp] theorem State.setIMask_requests (i : Bool) : (s.setIMask i).requests = s.requests := rfl
@[simp] theorem State.setIMask_stale (i : Bool) : (s.setIMask i).stale = s.stale := rfl
@[simp] theorem State.setIMask_draws (i : Bool) : (s.setIMask i).draws = s.draws := rfl

/-! `setXMask` -/

@[simp] theorem State.setXMask_a (x : Bool) : (s.setXMask x).a = s.a := rfl
@[simp] theorem State.setXMask_b (x : Bool) : (s.setXMask x).b = s.b := rfl
@[simp] theorem State.setXMask_x (x : Bool) : (s.setXMask x).x = s.x := rfl
@[simp] theorem State.setXMask_y (x : Bool) : (s.setXMask x).y = s.y := rfl
@[simp] theorem State.setXMask_sp (x : Bool) : (s.setXMask x).sp = s.sp := rfl
@[simp] theorem State.setXMask_pc (x : Bool) : (s.setXMask x).pc = s.pc := rfl
@[simp] theorem State.setXMask_ppage (x : Bool) : (s.setXMask x).ppage = s.ppage := rfl
@[simp] theorem State.setXMask_mem (x : Bool) : (s.setXMask x).mem = s.mem := rfl
@[simp] theorem State.setXMask_run (x : Bool) : (s.setXMask x).run = s.run := rfl
@[simp] theorem State.setXMask_requests (x : Bool) : (s.setXMask x).requests = s.requests := rfl
@[simp] theorem State.setXMask_stale (x : Bool) : (s.setXMask x).stale = s.stale := rfl
@[simp] theorem State.setXMask_draws (x : Bool) : (s.setXMask x).draws = s.draws := rfl

/-! `loadCcr` -/

@[simp] theorem State.loadCcr_a (v : Byte) : (s.loadCcr v).a = s.a := rfl
@[simp] theorem State.loadCcr_b (v : Byte) : (s.loadCcr v).b = s.b := rfl
@[simp] theorem State.loadCcr_x (v : Byte) : (s.loadCcr v).x = s.x := rfl
@[simp] theorem State.loadCcr_y (v : Byte) : (s.loadCcr v).y = s.y := rfl
@[simp] theorem State.loadCcr_sp (v : Byte) : (s.loadCcr v).sp = s.sp := rfl
@[simp] theorem State.loadCcr_pc (v : Byte) : (s.loadCcr v).pc = s.pc := rfl
@[simp] theorem State.loadCcr_ppage (v : Byte) : (s.loadCcr v).ppage = s.ppage := rfl
@[simp] theorem State.loadCcr_mem (v : Byte) : (s.loadCcr v).mem = s.mem := rfl
@[simp] theorem State.loadCcr_run (v : Byte) : (s.loadCcr v).run = s.run := rfl
@[simp] theorem State.loadCcr_requests (v : Byte) : (s.loadCcr v).requests = s.requests := rfl
@[simp] theorem State.loadCcr_stale (v : Byte) : (s.loadCcr v).stale = s.stale := rfl
@[simp] theorem State.loadCcr_draws (v : Byte) : (s.loadCcr v).draws = s.draws := rfl

/-! `andCcr` -/

@[simp] theorem State.andCcr_a (v : Byte) : (s.andCcr v).a = s.a := rfl
@[simp] theorem State.andCcr_b (v : Byte) : (s.andCcr v).b = s.b := rfl
@[simp] theorem State.andCcr_x (v : Byte) : (s.andCcr v).x = s.x := rfl
@[simp] theorem State.andCcr_y (v : Byte) : (s.andCcr v).y = s.y := rfl
@[simp] theorem State.andCcr_sp (v : Byte) : (s.andCcr v).sp = s.sp := rfl
@[simp] theorem State.andCcr_pc (v : Byte) : (s.andCcr v).pc = s.pc := rfl
@[simp] theorem State.andCcr_ppage (v : Byte) : (s.andCcr v).ppage = s.ppage := rfl
@[simp] theorem State.andCcr_mem (v : Byte) : (s.andCcr v).mem = s.mem := rfl
@[simp] theorem State.andCcr_run (v : Byte) : (s.andCcr v).run = s.run := rfl
@[simp] theorem State.andCcr_requests (v : Byte) : (s.andCcr v).requests = s.requests := rfl
@[simp] theorem State.andCcr_stale (v : Byte) : (s.andCcr v).stale = s.stale := rfl
@[simp] theorem State.andCcr_draws (v : Byte) : (s.andCcr v).draws = s.draws := rfl

/-! `orCcr` -/

@[simp] theorem State.orCcr_a (v : Byte) : (s.orCcr v).a = s.a := rfl
@[simp] theorem State.orCcr_b (v : Byte) : (s.orCcr v).b = s.b := rfl
@[simp] theorem State.orCcr_x (v : Byte) : (s.orCcr v).x = s.x := rfl
@[simp] theorem State.orCcr_y (v : Byte) : (s.orCcr v).y = s.y := rfl
@[simp] theorem State.orCcr_sp (v : Byte) : (s.orCcr v).sp = s.sp := rfl
@[simp] theorem State.orCcr_pc (v : Byte) : (s.orCcr v).pc = s.pc := rfl
@[simp] theorem State.orCcr_ppage (v : Byte) : (s.orCcr v).ppage = s.ppage := rfl
@[simp] theorem State.orCcr_mem (v : Byte) : (s.orCcr v).mem = s.mem := rfl
@[simp] theorem State.orCcr_run (v : Byte) : (s.orCcr v).run = s.run := rfl
@[simp] theorem State.orCcr_requests (v : Byte) : (s.orCcr v).requests = s.requests := rfl
@[simp] theorem State.orCcr_stale (v : Byte) : (s.orCcr v).stale = s.stale := rfl
@[simp] theorem State.orCcr_draws (v : Byte) : (s.orCcr v).draws = s.draws := rfl

/-! `flagsLogic` -/

@[simp] theorem State.flagsLogic_a {w : Nat} (r : BitVec w) : (s.flagsLogic r).a = s.a := rfl
@[simp] theorem State.flagsLogic_b {w : Nat} (r : BitVec w) : (s.flagsLogic r).b = s.b := rfl
@[simp] theorem State.flagsLogic_x {w : Nat} (r : BitVec w) : (s.flagsLogic r).x = s.x := rfl
@[simp] theorem State.flagsLogic_y {w : Nat} (r : BitVec w) : (s.flagsLogic r).y = s.y := rfl
@[simp] theorem State.flagsLogic_sp {w : Nat} (r : BitVec w) : (s.flagsLogic r).sp = s.sp := rfl
@[simp] theorem State.flagsLogic_pc {w : Nat} (r : BitVec w) : (s.flagsLogic r).pc = s.pc := rfl
@[simp] theorem State.flagsLogic_ppage {w : Nat} (r : BitVec w) : (s.flagsLogic r).ppage = s.ppage := rfl
@[simp] theorem State.flagsLogic_mem {w : Nat} (r : BitVec w) : (s.flagsLogic r).mem = s.mem := rfl
@[simp] theorem State.flagsLogic_run {w : Nat} (r : BitVec w) : (s.flagsLogic r).run = s.run := rfl
@[simp] theorem State.flagsLogic_requests {w : Nat} (r : BitVec w) : (s.flagsLogic r).requests = s.requests := rfl
@[simp] theorem State.flagsLogic_stale {w : Nat} (r : BitVec w) : (s.flagsLogic r).stale = s.stale := rfl
@[simp] theorem State.flagsLogic_draws {w : Nat} (r : BitVec w) : (s.flagsLogic r).draws = s.draws := rfl

/-! `flagsSub` -/

@[simp] theorem State.flagsSub_a {w : Nat} (a m r : BitVec w) : (s.flagsSub a m r).a = s.a := rfl
@[simp] theorem State.flagsSub_b {w : Nat} (a m r : BitVec w) : (s.flagsSub a m r).b = s.b := rfl
@[simp] theorem State.flagsSub_x {w : Nat} (a m r : BitVec w) : (s.flagsSub a m r).x = s.x := rfl
@[simp] theorem State.flagsSub_y {w : Nat} (a m r : BitVec w) : (s.flagsSub a m r).y = s.y := rfl
@[simp] theorem State.flagsSub_sp {w : Nat} (a m r : BitVec w) : (s.flagsSub a m r).sp = s.sp := rfl
@[simp] theorem State.flagsSub_pc {w : Nat} (a m r : BitVec w) : (s.flagsSub a m r).pc = s.pc := rfl
@[simp] theorem State.flagsSub_ppage {w : Nat} (a m r : BitVec w) : (s.flagsSub a m r).ppage = s.ppage := rfl
@[simp] theorem State.flagsSub_mem {w : Nat} (a m r : BitVec w) : (s.flagsSub a m r).mem = s.mem := rfl
@[simp] theorem State.flagsSub_run {w : Nat} (a m r : BitVec w) : (s.flagsSub a m r).run = s.run := rfl
@[simp] theorem State.flagsSub_requests {w : Nat} (a m r : BitVec w) : (s.flagsSub a m r).requests = s.requests := rfl
@[simp] theorem State.flagsSub_stale {w : Nat} (a m r : BitVec w) : (s.flagsSub a m r).stale = s.stale := rfl
@[simp] theorem State.flagsSub_draws {w : Nat} (a m r : BitVec w) : (s.flagsSub a m r).draws = s.draws := rfl

/-! `flagsAdd8` -/

@[simp] theorem State.flagsAdd8_a (a m r : Byte) : (s.flagsAdd8 a m r).a = s.a := rfl
@[simp] theorem State.flagsAdd8_b (a m r : Byte) : (s.flagsAdd8 a m r).b = s.b := rfl
@[simp] theorem State.flagsAdd8_x (a m r : Byte) : (s.flagsAdd8 a m r).x = s.x := rfl
@[simp] theorem State.flagsAdd8_y (a m r : Byte) : (s.flagsAdd8 a m r).y = s.y := rfl
@[simp] theorem State.flagsAdd8_sp (a m r : Byte) : (s.flagsAdd8 a m r).sp = s.sp := rfl
@[simp] theorem State.flagsAdd8_pc (a m r : Byte) : (s.flagsAdd8 a m r).pc = s.pc := rfl
@[simp] theorem State.flagsAdd8_ppage (a m r : Byte) : (s.flagsAdd8 a m r).ppage = s.ppage := rfl
@[simp] theorem State.flagsAdd8_mem (a m r : Byte) : (s.flagsAdd8 a m r).mem = s.mem := rfl
@[simp] theorem State.flagsAdd8_run (a m r : Byte) : (s.flagsAdd8 a m r).run = s.run := rfl
@[simp] theorem State.flagsAdd8_requests (a m r : Byte) : (s.flagsAdd8 a m r).requests = s.requests := rfl
@[simp] theorem State.flagsAdd8_stale (a m r : Byte) : (s.flagsAdd8 a m r).stale = s.stale := rfl
@[simp] theorem State.flagsAdd8_draws (a m r : Byte) : (s.flagsAdd8 a m r).draws = s.draws := rfl

/-! `flagsAdd16` -/

@[simp] theorem State.flagsAdd16_a (a m r : Word) : (s.flagsAdd16 a m r).a = s.a := rfl
@[simp] theorem State.flagsAdd16_b (a m r : Word) : (s.flagsAdd16 a m r).b = s.b := rfl
@[simp] theorem State.flagsAdd16_x (a m r : Word) : (s.flagsAdd16 a m r).x = s.x := rfl
@[simp] theorem State.flagsAdd16_y (a m r : Word) : (s.flagsAdd16 a m r).y = s.y := rfl
@[simp] theorem State.flagsAdd16_sp (a m r : Word) : (s.flagsAdd16 a m r).sp = s.sp := rfl
@[simp] theorem State.flagsAdd16_pc (a m r : Word) : (s.flagsAdd16 a m r).pc = s.pc := rfl
@[simp] theorem State.flagsAdd16_ppage (a m r : Word) : (s.flagsAdd16 a m r).ppage = s.ppage := rfl
@[simp] theorem State.flagsAdd16_mem (a m r : Word) : (s.flagsAdd16 a m r).mem = s.mem := rfl
@[simp] theorem State.flagsAdd16_run (a m r : Word) : (s.flagsAdd16 a m r).run = s.run := rfl
@[simp] theorem State.flagsAdd16_requests (a m r : Word) : (s.flagsAdd16 a m r).requests = s.requests := rfl
@[simp] theorem State.flagsAdd16_stale (a m r : Word) : (s.flagsAdd16 a m r).stale = s.stale := rfl
@[simp] theorem State.flagsAdd16_draws (a m r : Word) : (s.flagsAdd16 a m r).draws = s.draws := rfl

/-! `flagsShift` -/

@[simp] theorem State.flagsShift_a {w : Nat} (r : BitVec w) (c : Bool) : (s.flagsShift r c).a = s.a := rfl
@[simp] theorem State.flagsShift_b {w : Nat} (r : BitVec w) (c : Bool) : (s.flagsShift r c).b = s.b := rfl
@[simp] theorem State.flagsShift_x {w : Nat} (r : BitVec w) (c : Bool) : (s.flagsShift r c).x = s.x := rfl
@[simp] theorem State.flagsShift_y {w : Nat} (r : BitVec w) (c : Bool) : (s.flagsShift r c).y = s.y := rfl
@[simp] theorem State.flagsShift_sp {w : Nat} (r : BitVec w) (c : Bool) : (s.flagsShift r c).sp = s.sp := rfl
@[simp] theorem State.flagsShift_pc {w : Nat} (r : BitVec w) (c : Bool) : (s.flagsShift r c).pc = s.pc := rfl
@[simp] theorem State.flagsShift_ppage {w : Nat} (r : BitVec w) (c : Bool) : (s.flagsShift r c).ppage = s.ppage := rfl
@[simp] theorem State.flagsShift_mem {w : Nat} (r : BitVec w) (c : Bool) : (s.flagsShift r c).mem = s.mem := rfl
@[simp] theorem State.flagsShift_run {w : Nat} (r : BitVec w) (c : Bool) : (s.flagsShift r c).run = s.run := rfl
@[simp] theorem State.flagsShift_requests {w : Nat} (r : BitVec w) (c : Bool) : (s.flagsShift r c).requests = s.requests := rfl
@[simp] theorem State.flagsShift_stale {w : Nat} (r : BitVec w) (c : Bool) : (s.flagsShift r c).stale = s.stale := rfl
@[simp] theorem State.flagsShift_draws {w : Nat} (r : BitVec w) (c : Bool) : (s.flagsShift r c).draws = s.draws := rfl

/-! The fields an update writes -/

@[simp] theorem State.spend_draws (k : Nat) : (s.spend k).draws = s.draws + k := rfl
@[simp] theorem State.freeFlags_ccr (mask : Byte) :
    (s.freeFlags mask).ccr = (s.ccr &&& ~~~mask) ||| (Config.freeByte s.draws &&& mask) := rfl
@[simp] theorem State.setD_a (v : Word) : (s.setD v).a = hiByte v := rfl
@[simp] theorem State.setD_b (v : Word) : (s.setD v).b = loByte v := rfl
@[simp] theorem State.setYD_y (v : BitVec 32) : (s.setYD v).y = v.extractLsb' 16 16 := rfl
@[simp] theorem State.setYD_a (v : BitVec 32) : (s.setYD v).a = hiByte (v.extractLsb' 0 16) := rfl
@[simp] theorem State.setYD_b (v : BitVec 32) : (s.setYD v).b = loByte (v.extractLsb' 0 16) := rfl
@[simp] theorem State.push8_sp (v : Byte) : (s.push8 v).sp = s.sp - 1 := rfl
@[simp] theorem State.push16_sp (v : Word) : (s.push16 v).sp = s.sp - 2 := rfl
@[simp] theorem State.drop_sp (k : Word) : (s.drop k).sp = s.sp + k := rfl
@[simp] theorem State.loadCcr_ccr (v : Byte) :
    (s.loadCcr v).ccr = (v &&& 0xBF#8) ||| ((v &&& s.ccr) &&& 0x40#8) := rfl
@[simp] theorem State.andCcr_ccr (v : Byte) : (s.andCcr v).ccr = s.ccr &&& v := rfl
@[simp] theorem State.orCcr_ccr (v : Byte) : (s.orCcr v).ccr = s.ccr ||| (v &&& 0xBF#8) := rfl
@[simp] theorem State.setHNZVC_ccr (h n z v c : Bool) :
    (s.setHNZVC h n z v c).ccr = ccrOf s.flagS s.flagX h s.flagI n z v c := rfl
@[simp] theorem State.setNZVC_ccr (n z v c : Bool) :
    (s.setNZVC n z v c).ccr = ccrOf s.flagS s.flagX s.flagH s.flagI n z v c := rfl
@[simp] theorem State.setNZV_ccr (n z v : Bool) :
    (s.setNZV n z v).ccr = ccrOf s.flagS s.flagX s.flagH s.flagI n z v s.flagC := rfl
@[simp] theorem State.setNZC_ccr (n z c : Bool) :
    (s.setNZC n z c).ccr = ccrOf s.flagS s.flagX s.flagH s.flagI n z s.flagV c := rfl
@[simp] theorem State.setZVC_ccr (z v c : Bool) :
    (s.setZVC z v c).ccr = ccrOf s.flagS s.flagX s.flagH s.flagI s.flagN z v c := rfl
@[simp] theorem State.setZ_ccr (z : Bool) :
    (s.setZ z).ccr = ccrOf s.flagS s.flagX s.flagH s.flagI s.flagN z s.flagV s.flagC := rfl
@[simp] theorem State.setV_ccr (v : Bool) :
    (s.setV v).ccr = ccrOf s.flagS s.flagX s.flagH s.flagI s.flagN s.flagZ v s.flagC := rfl
@[simp] theorem State.setC_ccr (c : Bool) :
    (s.setC c).ccr = ccrOf s.flagS s.flagX s.flagH s.flagI s.flagN s.flagZ s.flagV c := rfl
@[simp] theorem State.setIMask_ccr (i : Bool) :
    (s.setIMask i).ccr = ccrOf s.flagS s.flagX s.flagH i s.flagN s.flagZ s.flagV s.flagC := rfl
@[simp] theorem State.setXMask_ccr (x : Bool) :
    (s.setXMask x).ccr = ccrOf s.flagS x s.flagH s.flagI s.flagN s.flagZ s.flagV s.flagC := rfl

/-- Nine bytes below (60_exceptions.md R503). -/
@[simp] theorem State.stackFrame_sp (rtn : Word) : (s.stackFrame rtn).sp = s.sp - 9 := by
  simp only [State.stackFrame, State.push8_sp, State.push16_sp]
  bv_omega

/-! `setAcc` -/

@[simp] theorem State.setAcc_x (r : Acc) (v : Byte) : (s.setAcc r v).x = s.x := by cases r <;> rfl
@[simp] theorem State.setAcc_y (r : Acc) (v : Byte) : (s.setAcc r v).y = s.y := by cases r <;> rfl
@[simp] theorem State.setAcc_sp (r : Acc) (v : Byte) : (s.setAcc r v).sp = s.sp := by cases r <;> rfl
@[simp] theorem State.setAcc_pc (r : Acc) (v : Byte) : (s.setAcc r v).pc = s.pc := by cases r <;> rfl
@[simp] theorem State.setAcc_ccr (r : Acc) (v : Byte) : (s.setAcc r v).ccr = s.ccr := by cases r <;> rfl
@[simp] theorem State.setAcc_ppage (r : Acc) (v : Byte) : (s.setAcc r v).ppage = s.ppage := by cases r <;> rfl
@[simp] theorem State.setAcc_mem (r : Acc) (v : Byte) : (s.setAcc r v).mem = s.mem := by cases r <;> rfl
@[simp] theorem State.setAcc_run (r : Acc) (v : Byte) : (s.setAcc r v).run = s.run := by cases r <;> rfl
@[simp] theorem State.setAcc_requests (r : Acc) (v : Byte) : (s.setAcc r v).requests = s.requests := by cases r <;> rfl
@[simp] theorem State.setAcc_stale (r : Acc) (v : Byte) : (s.setAcc r v).stale = s.stale := by cases r <;> rfl
@[simp] theorem State.setAcc_draws (r : Acc) (v : Byte) : (s.setAcc r v).draws = s.draws := by cases r <;> rfl
@[simp] theorem State.acc_setAcc (r : Acc) (v : Byte) : (s.setAcc r v).acc r = v := by cases r <;> rfl
@[simp] theorem State.d_setD (v : Word) : (s.setD v).d = v := joinBytes_hiByte_loByte v

/-! `setAuto` -/

@[simp] theorem setAuto_a (r : AutoReg) (v : Word) : (setAuto s r v).a = s.a := by cases r <;> rfl
@[simp] theorem setAuto_b (r : AutoReg) (v : Word) : (setAuto s r v).b = s.b := by cases r <;> rfl
@[simp] theorem setAuto_pc (r : AutoReg) (v : Word) : (setAuto s r v).pc = s.pc := by cases r <;> rfl
@[simp] theorem setAuto_ccr (r : AutoReg) (v : Word) : (setAuto s r v).ccr = s.ccr := by cases r <;> rfl
@[simp] theorem setAuto_ppage (r : AutoReg) (v : Word) : (setAuto s r v).ppage = s.ppage := by cases r <;> rfl
@[simp] theorem setAuto_mem (r : AutoReg) (v : Word) : (setAuto s r v).mem = s.mem := by cases r <;> rfl
@[simp] theorem setAuto_run (r : AutoReg) (v : Word) : (setAuto s r v).run = s.run := by cases r <;> rfl
@[simp] theorem setAuto_requests (r : AutoReg) (v : Word) : (setAuto s r v).requests = s.requests := by cases r <;> rfl
@[simp] theorem setAuto_stale (r : AutoReg) (v : Word) : (setAuto s r v).stale = s.stale := by cases r <;> rfl
@[simp] theorem setAuto_draws (r : AutoReg) (v : Word) : (setAuto s r v).draws = s.draws := by cases r <;> rfl
@[simp] theorem autoVal_setAuto (r : AutoReg) (v : Word) : autoVal (setAuto s r v) r = v := by cases r <;> rfl

/-! `idxUpdate` -/

@[simp] theorem idxUpdate_a (i : Idx) : (idxUpdate s i).a = s.a := by cases i <;> simp [idxUpdate]
@[simp] theorem idxUpdate_b (i : Idx) : (idxUpdate s i).b = s.b := by cases i <;> simp [idxUpdate]
@[simp] theorem idxUpdate_pc (i : Idx) : (idxUpdate s i).pc = s.pc := by cases i <;> simp [idxUpdate]
@[simp] theorem idxUpdate_ccr (i : Idx) : (idxUpdate s i).ccr = s.ccr := by cases i <;> simp [idxUpdate]
@[simp] theorem idxUpdate_ppage (i : Idx) : (idxUpdate s i).ppage = s.ppage := by cases i <;> simp [idxUpdate]
@[simp] theorem idxUpdate_mem (i : Idx) : (idxUpdate s i).mem = s.mem := by cases i <;> simp [idxUpdate]
@[simp] theorem idxUpdate_run (i : Idx) : (idxUpdate s i).run = s.run := by cases i <;> simp [idxUpdate]
@[simp] theorem idxUpdate_requests (i : Idx) : (idxUpdate s i).requests = s.requests := by cases i <;> simp [idxUpdate]
@[simp] theorem idxUpdate_stale (i : Idx) : (idxUpdate s i).stale = s.stale := by cases i <;> simp [idxUpdate]
@[simp] theorem idxUpdate_draws (i : Idx) : (idxUpdate s i).draws = s.draws := by cases i <;> simp [idxUpdate]

/-! `addrUpdate` -/

@[simp] theorem addrUpdate_a (m : Addr) : (addrUpdate s m).a = s.a := by cases m <;> simp [addrUpdate]
@[simp] theorem addrUpdate_b (m : Addr) : (addrUpdate s m).b = s.b := by cases m <;> simp [addrUpdate]
@[simp] theorem addrUpdate_pc (m : Addr) : (addrUpdate s m).pc = s.pc := by cases m <;> simp [addrUpdate]
@[simp] theorem addrUpdate_ccr (m : Addr) : (addrUpdate s m).ccr = s.ccr := by cases m <;> simp [addrUpdate]
@[simp] theorem addrUpdate_ppage (m : Addr) : (addrUpdate s m).ppage = s.ppage := by cases m <;> simp [addrUpdate]
@[simp] theorem addrUpdate_mem (m : Addr) : (addrUpdate s m).mem = s.mem := by cases m <;> simp [addrUpdate]
@[simp] theorem addrUpdate_run (m : Addr) : (addrUpdate s m).run = s.run := by cases m <;> simp [addrUpdate]
@[simp] theorem addrUpdate_requests (m : Addr) : (addrUpdate s m).requests = s.requests := by cases m <;> simp [addrUpdate]
@[simp] theorem addrUpdate_stale (m : Addr) : (addrUpdate s m).stale = s.stale := by cases m <;> simp [addrUpdate]
@[simp] theorem addrUpdate_draws (m : Addr) : (addrUpdate s m).draws = s.draws := by cases m <;> simp [addrUpdate]

/-! `src8Update` -/

@[simp] theorem src8Update_a (o : Src8) : (src8Update s o).a = s.a := by cases o <;> simp [src8Update]
@[simp] theorem src8Update_b (o : Src8) : (src8Update s o).b = s.b := by cases o <;> simp [src8Update]
@[simp] theorem src8Update_pc (o : Src8) : (src8Update s o).pc = s.pc := by cases o <;> simp [src8Update]
@[simp] theorem src8Update_ccr (o : Src8) : (src8Update s o).ccr = s.ccr := by cases o <;> simp [src8Update]
@[simp] theorem src8Update_ppage (o : Src8) : (src8Update s o).ppage = s.ppage := by cases o <;> simp [src8Update]
@[simp] theorem src8Update_mem (o : Src8) : (src8Update s o).mem = s.mem := by cases o <;> simp [src8Update]
@[simp] theorem src8Update_run (o : Src8) : (src8Update s o).run = s.run := by cases o <;> simp [src8Update]
@[simp] theorem src8Update_requests (o : Src8) : (src8Update s o).requests = s.requests := by cases o <;> simp [src8Update]
@[simp] theorem src8Update_stale (o : Src8) : (src8Update s o).stale = s.stale := by cases o <;> simp [src8Update]
@[simp] theorem src8Update_draws (o : Src8) : (src8Update s o).draws = s.draws := by cases o <;> simp [src8Update]

/-! `src16Update` -/

@[simp] theorem src16Update_a (o : Src16) : (src16Update s o).a = s.a := by cases o <;> simp [src16Update]
@[simp] theorem src16Update_b (o : Src16) : (src16Update s o).b = s.b := by cases o <;> simp [src16Update]
@[simp] theorem src16Update_pc (o : Src16) : (src16Update s o).pc = s.pc := by cases o <;> simp [src16Update]
@[simp] theorem src16Update_ccr (o : Src16) : (src16Update s o).ccr = s.ccr := by cases o <;> simp [src16Update]
@[simp] theorem src16Update_ppage (o : Src16) : (src16Update s o).ppage = s.ppage := by cases o <;> simp [src16Update]
@[simp] theorem src16Update_mem (o : Src16) : (src16Update s o).mem = s.mem := by cases o <;> simp [src16Update]
@[simp] theorem src16Update_run (o : Src16) : (src16Update s o).run = s.run := by cases o <;> simp [src16Update]
@[simp] theorem src16Update_requests (o : Src16) : (src16Update s o).requests = s.requests := by cases o <;> simp [src16Update]
@[simp] theorem src16Update_stale (o : Src16) : (src16Update s o).stale = s.stale := by cases o <;> simp [src16Update]
@[simp] theorem src16Update_draws (o : Src16) : (src16Update s o).draws = s.draws := by cases o <;> simp [src16Update]

/-! `hazardSpend` -/

@[simp] theorem hazardSpend_a (r : AutoReg) (o : Option AutoReg) : (hazardSpend s r o).a = s.a := by
  unfold hazardSpend; split <;> rfl
@[simp] theorem hazardSpend_b (r : AutoReg) (o : Option AutoReg) : (hazardSpend s r o).b = s.b := by
  unfold hazardSpend; split <;> rfl
@[simp] theorem hazardSpend_x (r : AutoReg) (o : Option AutoReg) : (hazardSpend s r o).x = s.x := by
  unfold hazardSpend; split <;> rfl
@[simp] theorem hazardSpend_y (r : AutoReg) (o : Option AutoReg) : (hazardSpend s r o).y = s.y := by
  unfold hazardSpend; split <;> rfl
@[simp] theorem hazardSpend_sp (r : AutoReg) (o : Option AutoReg) : (hazardSpend s r o).sp = s.sp := by
  unfold hazardSpend; split <;> rfl
@[simp] theorem hazardSpend_pc (r : AutoReg) (o : Option AutoReg) : (hazardSpend s r o).pc = s.pc := by
  unfold hazardSpend; split <;> rfl
@[simp] theorem hazardSpend_ccr (r : AutoReg) (o : Option AutoReg) : (hazardSpend s r o).ccr = s.ccr := by
  unfold hazardSpend; split <;> rfl
@[simp] theorem hazardSpend_ppage (r : AutoReg) (o : Option AutoReg) : (hazardSpend s r o).ppage = s.ppage := by
  unfold hazardSpend; split <;> rfl
@[simp] theorem hazardSpend_mem (r : AutoReg) (o : Option AutoReg) : (hazardSpend s r o).mem = s.mem := by
  unfold hazardSpend; split <;> rfl
@[simp] theorem hazardSpend_run (r : AutoReg) (o : Option AutoReg) : (hazardSpend s r o).run = s.run := by
  unfold hazardSpend; split <;> rfl
@[simp] theorem hazardSpend_requests (r : AutoReg) (o : Option AutoReg) : (hazardSpend s r o).requests = s.requests := by
  unfold hazardSpend; split <;> rfl
@[simp] theorem hazardSpend_stale (r : AutoReg) (o : Option AutoReg) : (hazardSpend s r o).stale = s.stale := by
  unfold hazardSpend; split <;> rfl

/-! `trailingSpend` -/

@[simp] theorem trailingSpend_a (u : Bool) : (trailingSpend s u).a = s.a := by
  unfold trailingSpend; split <;> rfl
@[simp] theorem trailingSpend_b (u : Bool) : (trailingSpend s u).b = s.b := by
  unfold trailingSpend; split <;> rfl
@[simp] theorem trailingSpend_x (u : Bool) : (trailingSpend s u).x = s.x := by
  unfold trailingSpend; split <;> rfl
@[simp] theorem trailingSpend_y (u : Bool) : (trailingSpend s u).y = s.y := by
  unfold trailingSpend; split <;> rfl
@[simp] theorem trailingSpend_sp (u : Bool) : (trailingSpend s u).sp = s.sp := by
  unfold trailingSpend; split <;> rfl
@[simp] theorem trailingSpend_pc (u : Bool) : (trailingSpend s u).pc = s.pc := by
  unfold trailingSpend; split <;> rfl
@[simp] theorem trailingSpend_ccr (u : Bool) : (trailingSpend s u).ccr = s.ccr := by
  unfold trailingSpend; split <;> rfl
@[simp] theorem trailingSpend_ppage (u : Bool) : (trailingSpend s u).ppage = s.ppage := by
  unfold trailingSpend; split <;> rfl
@[simp] theorem trailingSpend_mem (u : Bool) : (trailingSpend s u).mem = s.mem := by
  unfold trailingSpend; split <;> rfl
@[simp] theorem trailingSpend_run (u : Bool) : (trailingSpend s u).run = s.run := by
  unfold trailingSpend; split <;> rfl
@[simp] theorem trailingSpend_requests (u : Bool) : (trailingSpend s u).requests = s.requests := by
  unfold trailingSpend; split <;> rfl
@[simp] theorem trailingSpend_stale (u : Bool) : (trailingSpend s u).stale = s.stale := by
  unfold trailingSpend; split <;> rfl

/-! `trailingUpdate` -/

@[simp] theorem trailingUpdate_a (m : Addr) : (trailingUpdate s m).a = s.a := by
  simp [trailingUpdate]
@[simp] theorem trailingUpdate_b (m : Addr) : (trailingUpdate s m).b = s.b := by
  simp [trailingUpdate]
@[simp] theorem trailingUpdate_pc (m : Addr) : (trailingUpdate s m).pc = s.pc := by
  simp [trailingUpdate]
@[simp] theorem trailingUpdate_ccr (m : Addr) : (trailingUpdate s m).ccr = s.ccr := by
  simp [trailingUpdate]
@[simp] theorem trailingUpdate_ppage (m : Addr) : (trailingUpdate s m).ppage = s.ppage := by
  simp [trailingUpdate]
@[simp] theorem trailingUpdate_mem (m : Addr) : (trailingUpdate s m).mem = s.mem := by
  simp [trailingUpdate]
@[simp] theorem trailingUpdate_run (m : Addr) : (trailingUpdate s m).run = s.run := by
  simp [trailingUpdate]
@[simp] theorem trailingUpdate_requests (m : Addr) : (trailingUpdate s m).requests = s.requests := by
  simp [trailingUpdate]
@[simp] theorem trailingUpdate_stale (m : Addr) : (trailingUpdate s m).stale = s.stale := by
  simp [trailingUpdate]

/-! `writeR8` and `writeR16` -/

@[simp] theorem writeR8_x (r : R8) (v : Byte) : (writeR8 s r v).x = s.x := by cases r <;> rfl
@[simp] theorem writeR8_y (r : R8) (v : Byte) : (writeR8 s r v).y = s.y := by cases r <;> rfl
@[simp] theorem writeR8_sp (r : R8) (v : Byte) : (writeR8 s r v).sp = s.sp := by cases r <;> rfl
@[simp] theorem writeR8_pc (r : R8) (v : Byte) : (writeR8 s r v).pc = s.pc := by cases r <;> rfl
@[simp] theorem writeR8_ppage (r : R8) (v : Byte) : (writeR8 s r v).ppage = s.ppage := by cases r <;> rfl
@[simp] theorem writeR8_mem (r : R8) (v : Byte) : (writeR8 s r v).mem = s.mem := by cases r <;> rfl
@[simp] theorem writeR8_run (r : R8) (v : Byte) : (writeR8 s r v).run = s.run := by cases r <;> rfl
@[simp] theorem writeR8_requests (r : R8) (v : Byte) : (writeR8 s r v).requests = s.requests := by cases r <;> rfl
@[simp] theorem writeR8_stale (r : R8) (v : Byte) : (writeR8 s r v).stale = s.stale := by cases r <;> rfl
@[simp] theorem writeR8_draws (r : R8) (v : Byte) : (writeR8 s r v).draws = s.draws := by cases r <;> rfl
@[simp] theorem writeR16_pc (r : R16) (v : Word) : (writeR16 s r v).pc = s.pc := by cases r <;> rfl
@[simp] theorem writeR16_ccr (r : R16) (v : Word) : (writeR16 s r v).ccr = s.ccr := by cases r <;> rfl
@[simp] theorem writeR16_ppage (r : R16) (v : Word) : (writeR16 s r v).ppage = s.ppage := by cases r <;> rfl
@[simp] theorem writeR16_mem (r : R16) (v : Word) : (writeR16 s r v).mem = s.mem := by cases r <;> rfl
@[simp] theorem writeR16_run (r : R16) (v : Word) : (writeR16 s r v).run = s.run := by cases r <;> rfl
@[simp] theorem writeR16_requests (r : R16) (v : Word) : (writeR16 s r v).requests = s.requests := by cases r <;> rfl
@[simp] theorem writeR16_stale (r : R16) (v : Word) : (writeR16 s r v).stale = s.stale := by cases r <;> rfl
@[simp] theorem writeR16_draws (r : R16) (v : Word) : (writeR16 s r v).draws = s.draws := by cases r <;> rfl

/-! `goto` -/

@[simp] theorem State.goto_a (target : Word) : (s.goto target).a = s.a := rfl
@[simp] theorem State.goto_b (target : Word) : (s.goto target).b = s.b := rfl
@[simp] theorem State.goto_x (target : Word) : (s.goto target).x = s.x := rfl
@[simp] theorem State.goto_y (target : Word) : (s.goto target).y = s.y := rfl
@[simp] theorem State.goto_sp (target : Word) : (s.goto target).sp = s.sp := rfl
@[simp] theorem State.goto_ccr (target : Word) : (s.goto target).ccr = s.ccr := rfl
@[simp] theorem State.goto_ppage (target : Word) : (s.goto target).ppage = s.ppage := rfl
@[simp] theorem State.goto_mem (target : Word) : (s.goto target).mem = s.mem := rfl
@[simp] theorem State.goto_run (target : Word) : (s.goto target).run = s.run := rfl
@[simp] theorem State.goto_requests (target : Word) : (s.goto target).requests = s.requests := rfl
@[simp] theorem State.goto_draws (target : Word) : (s.goto target).draws = s.draws := rfl
@[simp] theorem State.goto_pc (target : Word) : (s.goto target).pc = target := rfl
@[simp] theorem State.goto_stale (target : Word) : (s.goto target).stale = [] := rfl

end Sys2Proof.Machine
end

