-- ==== Sys2Proof/Laws/Flags.lean ====
section
/-! SUPPORT. The condition code register bit by bit, and what the carry and overflow formulae say of the numbers (00_scope.md
R15: "1 exactly when zext(a) < zext(m) + cin", "carry out of bit msb"). -/

namespace Sys2Proof.Machine

/-! ### Bits of a composed register -/

section Bits

variable (s x h i n z v c : Bool)

@[simp] theorem ccrOf_bit7 : (ccrOf s x h i n z v c)[7] = s := by
  cases s <;> cases x <;> cases h <;> cases i <;> cases n <;> cases z <;> cases v <;> cases c <;> rfl
@[simp] theorem ccrOf_bit6 : (ccrOf s x h i n z v c)[6] = x := by
  cases s <;> cases x <;> cases h <;> cases i <;> cases n <;> cases z <;> cases v <;> cases c <;> rfl
@[simp] theorem ccrOf_bit5 : (ccrOf s x h i n z v c)[5] = h := by
  cases s <;> cases x <;> cases h <;> cases i <;> cases n <;> cases z <;> cases v <;> cases c <;> rfl
@[simp] theorem ccrOf_bit4 : (ccrOf s x h i n z v c)[4] = i := by
  cases s <;> cases x <;> cases h <;> cases i <;> cases n <;> cases z <;> cases v <;> cases c <;> rfl
@[simp] theorem ccrOf_bit3 : (ccrOf s x h i n z v c)[3] = n := by
  cases s <;> cases x <;> cases h <;> cases i <;> cases n <;> cases z <;> cases v <;> cases c <;> rfl
@[simp] theorem ccrOf_bit2 : (ccrOf s x h i n z v c)[2] = z := by
  cases s <;> cases x <;> cases h <;> cases i <;> cases n <;> cases z <;> cases v <;> cases c <;> rfl
@[simp] theorem ccrOf_bit1 : (ccrOf s x h i n z v c)[1] = v := by
  cases s <;> cases x <;> cases h <;> cases i <;> cases n <;> cases z <;> cases v <;> cases c <;> rfl
@[simp] theorem ccrOf_bit0 : (ccrOf s x h i n z v c)[0] = c := by
  cases s <;> cases x <;> cases h <;> cases i <;> cases n <;> cases z <;> cases v <;> cases c <;> rfl

end Bits

/-- Two bytes with the same eight bits are equal. -/
theorem byte_ext {p q : Byte} (h7 : p.getLsbD 7 = q.getLsbD 7) (h6 : p.getLsbD 6 = q.getLsbD 6)
    (h5 : p.getLsbD 5 = q.getLsbD 5) (h4 : p.getLsbD 4 = q.getLsbD 4) (h3 : p.getLsbD 3 = q.getLsbD 3)
    (h2 : p.getLsbD 2 = q.getLsbD 2) (h1 : p.getLsbD 1 = q.getLsbD 1) (h0 : p.getLsbD 0 = q.getLsbD 0) : p = q := by
  apply BitVec.eq_of_getLsbD_eq
  intro k hk
  have : k = 0 ∨ k = 1 ∨ k = 2 ∨ k = 3 ∨ k = 4 ∨ k = 5 ∨ k = 6 ∨ k = 7 := by omega
  rcases this with rfl | rfl | rfl | rfl | rfl | rfl | rfl | rfl <;> assumption

/-- The register is its eight flags (10_state.md R27). -/
@[simp] theorem ccrOf_flags (s : State) :
    ccrOf s.flagS s.flagX s.flagH s.flagI s.flagN s.flagZ s.flagV s.flagC = s.ccr := by
  apply byte_ext <;> simp [State.flagS, State.flagX, State.flagH, State.flagI, State.flagN, State.flagZ, State.flagV,
    State.flagC]

/-- A flag depends on the register alone. -/
theorem flags_congr {s t : State} (e : t.ccr = s.ccr) :
    t.flagS = s.flagS ∧ t.flagX = s.flagX ∧ t.flagH = s.flagH ∧ t.flagI = s.flagI ∧ t.flagN = s.flagN
      ∧ t.flagZ = s.flagZ ∧ t.flagV = s.flagV ∧ t.flagC = s.flagC := by
  simp [State.flagS, State.flagX, State.flagH, State.flagI, State.flagN, State.flagZ, State.flagV, State.flagC, e]

/-! ### Numbers -/

/-- A bit of a vector as arithmetic on its number. -/
theorem getLsbD_eq_div_mod {w : Nat} (p : BitVec w) (k : Nat) : p.getLsbD k = decide (p.toNat / 2 ^ k % 2 = 1) := by
  rw [BitVec.getLsbD, Nat.testBit_eq_decide_div_mod_eq]

theorem toNat_cin8 (c : Bool) : ((BitVec.ofBool c).zeroExtend 8 : Byte).toNat = c.toNat := by cases c <;> rfl

/-- A borrow out of an 8-bit subtraction. -/
theorem subC_byte (a m : Byte) (c : Bool) :
    subC a m (a - m - (BitVec.ofBool c).zeroExtend 8) = decide (a.toNat < m.toNat + c.toNat) := by
  have ha := a.isLt
  have hm := m.isLt
  simp only [subC, BitVec.msb_eq_decide, BitVec.toNat_sub, toNat_cin8]
  cases c <;> simp only [Bool.toNat_false, Bool.toNat_true] <;>
    (rw [Bool.eq_iff_iff]; simp; omega)

/-- A borrow out of a 16-bit subtraction. -/
theorem subC_word (a m : Word) : subC a m (a - m) = decide (a.toNat < m.toNat) := by
  have ha := a.isLt
  have hm := m.isLt
  simp only [subC, BitVec.msb_eq_decide, BitVec.toNat_sub]
  rw [Bool.eq_iff_iff]; simp; omega

/-- Signed overflow of an 8-bit subtraction. -/
theorem subV_byte (a m : Byte) (c : Bool) :
    subV a m (a - m - (BitVec.ofBool c).zeroExtend 8)
      = decide (a.toInt - m.toInt - c.toNat < -128 ∨ 127 < a.toInt - m.toInt - c.toNat) := by
  have ha := a.isLt
  have hm := m.isLt
  simp only [subV, BitVec.msb_eq_decide, BitVec.toNat_sub, toNat_cin8, BitVec.toInt_eq_toNat_cond]
  cases c <;> simp only [Bool.toNat_false, Bool.toNat_true] <;>
    (rw [Bool.eq_iff_iff]; simp; omega)

/-- Signed overflow of a 16-bit subtraction. -/
theorem subV_word (a m : Word) :
    subV a m (a - m) = decide (a.toInt - m.toInt < -32768 ∨ 32767 < a.toInt - m.toInt) := by
  have ha := a.isLt
  have hm := m.isLt
  simp only [subV, BitVec.msb_eq_decide, BitVec.toNat_sub, BitVec.toInt_eq_toNat_cond]
  rw [Bool.eq_iff_iff]; simp; omega

/-- The carry out of bit 7 of an 8-bit addition. -/
theorem addCarry_byte (a m : Byte) (c : Bool) :
    addCarry 7 a m (a + m + (BitVec.ofBool c).zeroExtend 8) = decide (256 ≤ a.toNat + m.toNat + c.toNat) := by
  have ha := a.isLt
  have hm := m.isLt
  simp only [addCarry, getLsbD_eq_div_mod, BitVec.toNat_add, toNat_cin8]
  cases c <;> simp only [Bool.toNat_false, Bool.toNat_true] <;>
    (rw [Bool.eq_iff_iff]; simp; omega)

/-- The half carry, out of bit 3. -/
theorem addCarry_half (a m : Byte) (c : Bool) :
    addCarry 3 a m (a + m + (BitVec.ofBool c).zeroExtend 8)
      = decide (16 ≤ a.toNat % 16 + m.toNat % 16 + c.toNat) := by
  have ha := a.isLt
  have hm := m.isLt
  simp only [addCarry, getLsbD_eq_div_mod, BitVec.toNat_add, toNat_cin8]
  cases c <;> simp only [Bool.toNat_false, Bool.toNat_true] <;>
    (rw [Bool.eq_iff_iff]; simp; omega)

/-- The carry out of bit 15 of a 16-bit addition. -/
theorem addCarry_word (a m : Word) : addCarry 15 a m (a + m) = decide (65536 ≤ a.toNat + m.toNat) := by
  have ha := a.isLt
  have hm := m.isLt
  simp only [addCarry, getLsbD_eq_div_mod, BitVec.toNat_add]
  rw [Bool.eq_iff_iff]; simp; omega

/-- Signed overflow of an 8-bit addition. -/
theorem addV_byte (a m : Byte) (c : Bool) :
    addV a m (a + m + (BitVec.ofBool c).zeroExtend 8)
      = decide (a.toInt + m.toInt + c.toNat < -128 ∨ 127 < a.toInt + m.toInt + c.toNat) := by
  have ha := a.isLt
  have hm := m.isLt
  simp only [addV, BitVec.msb_eq_decide, BitVec.toNat_add, toNat_cin8, BitVec.toInt_eq_toNat_cond]
  cases c <;> simp only [Bool.toNat_false, Bool.toNat_true] <;>
    (rw [Bool.eq_iff_iff]; simp; omega)

/-- Signed overflow of a 16-bit addition. -/
theorem addV_word (a m : Word) :
    addV a m (a + m) = decide (a.toInt + m.toInt < -32768 ∨ 32767 < a.toInt + m.toInt) := by
  have ha := a.isLt
  have hm := m.isLt
  simp only [addV, BitVec.msb_eq_decide, BitVec.toNat_add, BitVec.toInt_eq_toNat_cond]
  rw [Bool.eq_iff_iff]; simp; omega

end Sys2Proof.Machine
end

