-- ==== Sys2Proof/Laws/Fuzzy.lean ====
section
/-! SUPPORT. The partial sums of a WAV as sums over a list (47_fuzzy.md R323). -/

namespace Sys2Proof.Machine

/-- The sum of products over the first `n` elements. -/
theorem wavProducts_eq (s : State) (acc : BitVec 32) (n : Nat) :
    wavProducts s acc n = acc + BitVec.ofNat 32 ((List.range n).map fun k =>
      (s.read8 (s.x + BitVec.ofNat 16 k)).toNat * (s.read8 (s.y + BitVec.ofNat 16 k)).toNat).sum := by
  induction n with
  | zero => simp [wavProducts]
  | succ n ih =>
    rw [wavProducts, ih, List.range_succ, List.map_append, List.sum_append, BitVec.ofNat_add, BitVec.add_assoc]
    simp [BitVec.ofNat_mul, BitVec.ofNat_toNat]

/-- The sum of weights over the first `n` elements. -/
theorem wavWeights_eq (s : State) (acc : Word) (n : Nat) :
    wavWeights s acc n =
      acc + BitVec.ofNat 16 ((List.range n).map fun k => (s.read8 (s.y + BitVec.ofNat 16 k)).toNat).sum := by
  induction n with
  | zero => simp [wavWeights]
  | succ n ih =>
    rw [wavWeights, ih, List.range_succ, List.map_append, List.sum_append, BitVec.ofNat_add, BitVec.add_assoc]
    simp [BitVec.ofNat_toNat]

end Sys2Proof.Machine
end

