-- ==== Sys2Proof/Laws/Numbers.lean ====
section
/-! SUPPORT. The flag updates in numbers: each equals the condition code register of Sys2Proof.Safety. -/

namespace Sys2Proof.Machine
open Sys2Proof.Safety

theorem isNeg_eq {w : Nat} (r : BitVec w) : isNeg r = negative r := by
  simp only [isNeg, negative]
  rw [BitVec.msb_eq_toInt]

theorem isZero_eq {w : Nat} (r : BitVec w) : isZero r = zero r := by
  simp only [isZero, zero]
  rw [Bool.eq_iff_iff]
  simp [BitVec.toNat_eq]

theorem eq0_zero {w : Nat} (r : BitVec w) : (r == 0) = zero r := isZero_eq r

theorem logicFlags {w : Nat} (s : State) (r : BitVec w) : s.flagsLogic r = { s with ccr := ccrLogic s r } := by
  simp [State.flagsLogic, State.setNZV, State.setNZVC, State.setHNZVC, ccrLogic, ccrNZVC, isNeg_eq, isZero_eq]

theorem add8_result (p m : Byte) (c : Bool) :
    p + m + (BitVec.ofBool c).zeroExtend 8 = BitVec.ofNat 8 (p.toNat + m.toNat + c.toNat) := by
  apply BitVec.eq_of_toNat_eq
  simp only [BitVec.toNat_add, toNat_cin8, BitVec.toNat_ofNat]
  omega

theorem add8_flags (s : State) (p m : Byte) (c : Bool) :
    s.flagsAdd8 p m (p + m + (BitVec.ofBool c).zeroExtend 8) = { s with ccr := ccrAdd8 s p m c.toNat } := by
  simp only [State.flagsAdd8, State.setHNZVC, addCarry_half, addCarry_byte, addV_byte]
  simp only [ccrAdd8, isNeg_eq, isZero_eq, add8_result, overflows]
  congr 2

theorem add8_result' (p m : Byte) : p + m = BitVec.ofNat 8 (p.toNat + m.toNat) := by
  apply BitVec.eq_of_toNat_eq
  simp

theorem add8_flags' (s : State) (p m : Byte) : s.flagsAdd8 p m (p + m) = { s with ccr := ccrAdd8 s p m 0 } := by
  simpa using add8_flags s p m false

theorem add16_result (p m : Word) : p + m = BitVec.ofNat 16 (p.toNat + m.toNat) := by
  apply BitVec.eq_of_toNat_eq
  simp

theorem add16_flags (s : State) (p m : Word) : s.flagsAdd16 p m (p + m) = { s with ccr := ccrAdd16 s p m } := by
  simp only [State.flagsAdd16, State.setNZVC, State.setHNZVC, addCarry_word, addV_word]
  simp only [ccrAdd16, ccrNZVC, isNeg_eq, isZero_eq, add16_result, overflows]
  congr 2

theorem sub8_result (p m : Byte) (c : Bool) :
    p - m - (BitVec.ofBool c).zeroExtend 8 = BitVec.ofInt 8 (p.toInt - m.toInt - c.toNat) := by
  apply BitVec.eq_of_toInt_eq
  have : ((BitVec.ofBool c).zeroExtend 8 : Byte).toInt = c.toNat := by cases c <;> rfl
  simp only [BitVec.toInt_sub, BitVec.toInt_ofInt, this]
  simp

theorem sub8_flags (s : State) (p m : Byte) (c : Bool) :
    s.flagsSub p m (p - m - (BitVec.ofBool c).zeroExtend 8) = { s with ccr := ccrSub8 s p m c.toNat } := by
  simp only [State.flagsSub, State.setNZVC, State.setHNZVC, subC_byte, subV_byte]
  simp only [ccrSub8, ccrNZVC, isNeg_eq, isZero_eq, sub8_result, overflows]
  congr 2

theorem sub8_result' (p m : Byte) : p - m = BitVec.ofInt 8 (p.toInt - m.toInt) := by
  simpa using sub8_result p m false

theorem sub8_flags' (s : State) (p m : Byte) : s.flagsSub p m (p - m) = { s with ccr := ccrSub8 s p m 0 } := by
  simpa using sub8_flags s p m false

theorem sub16_result (p m : Word) : p - m = BitVec.ofInt 16 (p.toInt - m.toInt) := by
  apply BitVec.eq_of_toInt_eq
  simp [BitVec.toInt_sub, BitVec.toInt_ofInt]

theorem sub16_flags (s : State) (p m : Word) : s.flagsSub p m (p - m) = { s with ccr := ccrSub16 s p m } := by
  simp only [State.flagsSub, State.setNZVC, State.setHNZVC, subC_word, subV_word]
  simp only [ccrSub16, ccrNZVC, isNeg_eq, isZero_eq, sub16_result, overflows]
  congr 2

end Sys2Proof.Machine
end

