-- ==== Sys2Proof/Laws/Ops.lean ====
section
/-! SUPPORT. What each shared operation does, said once in the terms of Sys2Proof.Safety: condition codes under an unchanged
register, stores byte by byte, shifts, selections, branches, hazards, and taking an exception. -/

namespace Sys2Proof.Machine
open Sys2Proof.Safety

/-! ### Condition codes depend on the register alone -/

theorem ccrNZVC_congr {s t : State} (h : t.ccr = s.ccr) (n z v c : Bool) : ccrNZVC t n z v c = ccrNZVC s n z v c := by
  simp [ccrNZVC, flags_congr h]
theorem ccrLogic_congr {s t : State} (h : t.ccr = s.ccr) {w : Nat} (r : BitVec w) : ccrLogic t r = ccrLogic s r := by
  simp [ccrLogic, ccrNZVC, flags_congr h]
theorem ccrAdd8_congr {s t : State} (h : t.ccr = s.ccr) (p m : Byte) (c : Nat) : ccrAdd8 t p m c = ccrAdd8 s p m c := by
  simp [ccrAdd8, flags_congr h]
theorem ccrAdd16_congr {s t : State} (h : t.ccr = s.ccr) (p m : Word) : ccrAdd16 t p m = ccrAdd16 s p m := by
  simp [ccrAdd16, ccrNZVC, flags_congr h]
theorem ccrSub8_congr {s t : State} (h : t.ccr = s.ccr) (p m : Byte) (c : Nat) : ccrSub8 t p m c = ccrSub8 s p m c := by
  simp [ccrSub8, ccrNZVC, flags_congr h]
theorem ccrSub16_congr {s t : State} (h : t.ccr = s.ccr) (p m : Word) : ccrSub16 t p m = ccrSub16 s p m := by
  simp [ccrSub16, ccrNZVC, flags_congr h]
theorem ccrShift_congr {s t : State} (h : t.ccr = s.ccr) {w : Nat} (r : BitVec w) (c : Bool) :
    ccrShift t r c = ccrShift s r c := by
  simp [ccrShift, ccrNZVC, flags_congr h]
theorem ccrLoaded_congr {s t : State} (h : t.ccr = s.ccr) (v : Byte) : ccrLoaded t v = ccrLoaded s v := by
  simp [ccrLoaded, flags_congr h]

/-- Loading CCR leaves the register of R34. -/
theorem loadCcr_ccr (s : State) (v : Byte) : (s.loadCcr v).ccr = ccrLoaded s v := by
  simp only [State.loadCcr]
  apply byte_ext <;> simp [ccrLoaded, State.flagX, Bool.and_comm]

/-- Freeing flags keeps every bit outside the mask. -/
theorem freeFlags_bit (s : State) (mask : Byte) (k : Nat) (h : mask.getLsbD k = false) :
    (s.freeFlags mask).ccr.getLsbD k = s.ccr.getLsbD k := by
  by_cases hk : k < 8
  · have h' : mask[k] = false := by simpa [BitVec.getLsbD_eq_getElem hk] using h
    simp [State.freeFlags, h', hk]
  · rw [BitVec.getLsbD_of_ge _ _ (by omega), BitVec.getLsbD_of_ge _ _ (by omega)]

/-! ### What `enter` leaves in each field -/

@[simp] theorem State.enter_a (s : State) (vector : Word) (x : Bool) : (s.enter vector x).a = s.a := by
  cases x <;> rfl
@[simp] theorem State.enter_b (s : State) (vector : Word) (x : Bool) : (s.enter vector x).b = s.b := by
  cases x <;> rfl
@[simp] theorem State.enter_x (s : State) (vector : Word) (x : Bool) : (s.enter vector x).x = s.x := by
  cases x <;> rfl
@[simp] theorem State.enter_y (s : State) (vector : Word) (x : Bool) : (s.enter vector x).y = s.y := by
  cases x <;> rfl
@[simp] theorem State.enter_sp (s : State) (vector : Word) (x : Bool) : (s.enter vector x).sp = s.sp := by
  cases x <;> rfl
@[simp] theorem State.enter_ppage (s : State) (vector : Word) (x : Bool) : (s.enter vector x).ppage = s.ppage := by
  cases x <;> rfl
@[simp] theorem State.enter_mem (s : State) (vector : Word) (x : Bool) : (s.enter vector x).mem = s.mem := by
  cases x <;> rfl
@[simp] theorem State.enter_run (s : State) (vector : Word) (x : Bool) : (s.enter vector x).run = s.run := by
  cases x <;> rfl
@[simp] theorem State.enter_requests (s : State) (vector : Word) (x : Bool) : (s.enter vector x).requests = s.requests := by
  cases x <;> rfl
@[simp] theorem State.enter_stale (s : State) (vector : Word) (x : Bool) : (s.enter vector x).stale = [] := by
  cases x <;> rfl
@[simp] theorem State.enter_draws (s : State) (vector : Word) (x : Bool) : (s.enter vector x).draws = s.draws := by
  cases x <;> rfl
@[simp] theorem State.enter_pc (s : State) (vector : Word) (x : Bool) : (s.enter vector x).pc = s.read16 vector := by
  cases x <;> rfl
@[simp] theorem State.enter_ccr (s : State) (vector : Word) (x : Bool) : (s.enter vector x).ccr =
    ccrOf s.flagS (s.flagX || x) s.flagH true s.flagN s.flagZ s.flagV s.flagC := by
  cases x <;> simp [State.enter, State.setIMask, State.setXMask, State.flagS, State.flagX, State.flagH, State.flagI,
    State.flagN, State.flagZ, State.flagV, State.flagC]

/-! ### Stores, byte by byte -/

theorem storesByte_of {s u t : State} {ea : Word} {v : Byte} (hu : u.mem = s.mem) (ht : t.mem = (u.write8 ea v).mem) :
    StoresByte s t ea v := by
  intro b
  rw [State.read8_congr ht, State.read8_write8, State.read8_congr hu]

theorem storesWord_of {s u t : State} {ea v : Word} (hu : u.mem = s.mem) (ht : t.mem = (u.write16 ea v).mem) :
    StoresWord s t ea v := by
  intro b
  rw [State.read8_congr ht, State.read8_write16, State.read8_congr hu]

/-- One byte after a store of four. -/
theorem State.read8_write32 (s : State) (ea b : Word) (v : BitVec 32) :
    (s.write32 ea v).read8 b =
      if b = ea then v.extractLsb' 24 8 else if b = ea + 1 then v.extractLsb' 16 8
      else if b = ea + 2 then v.extractLsb' 8 8 else if b = ea + 3 then v.extractLsb' 0 8 else s.read8 b := by
  have e3 : ea + 2 + 1 = ea + 3 := by rw [BitVec.add_assoc]; rfl
  have h1 : hiByte (v.extractLsb' 16 16) = v.extractLsb' 24 8 := by
    apply BitVec.eq_of_getLsbD_eq; intro i hi; simp [hiByte, hi, ← Nat.add_assoc]; omega
  have h2 : loByte (v.extractLsb' 16 16) = v.extractLsb' 16 8 := by
    apply BitVec.eq_of_getLsbD_eq; intro i hi; simp [loByte, hi]; omega
  have h3 : hiByte (v.extractLsb' 0 16) = v.extractLsb' 8 8 := by
    apply BitVec.eq_of_getLsbD_eq; intro i hi; simp [hiByte, hi]
  have h4 : loByte (v.extractLsb' 0 16) = v.extractLsb' 0 8 := by
    apply BitVec.eq_of_getLsbD_eq; intro i hi; simp [loByte, hi]
  simp only [State.write32, State.read8_write16, e3, h1, h2, h3, h4]
  have d : ∀ p q : Word, p ≠ q → ea + p ≠ ea + q := fun p q h e => h (by simpa using e)
  have n1 : ea ≠ ea + 2 := by intro e; exact absurd (BitVec.self_eq_add_right.1 e) (by decide)
  have n2 : ea ≠ ea + 3 := by intro e; exact absurd (BitVec.self_eq_add_right.1 e) (by decide)
  have n3 := d 1 2 (by decide)
  have n4 := d 1 3 (by decide)
  by_cases c0 : b = ea
  · simp only [c0, n1, n2, if_true, if_false]
  · by_cases c1 : b = ea + 1
    · simp only [c1, n3, n4, if_true, if_false]
    · simp only [c0, c1, if_false]

theorem storesLong_of {s u t : State} {ea : Word} {v : BitVec 32} (hu : u.mem = s.mem)
    (ht : t.mem = (u.write32 ea v).mem) : StoresLong s t ea v := by
  intro b
  rw [State.read8_congr ht, State.read8_write32, State.read8_congr hu]

/-- One byte after a push of one. -/
theorem State.read8_push8 (s : State) (v : Byte) (b : Word) :
    (s.push8 v).read8 b = if b = s.sp - 1 then v else s.read8 b := by
  rw [State.push8, State.read8_write8]; rfl

/-- One byte after a push of a word. -/
theorem State.read8_push16 (s : State) (v b : Word) :
    (s.push16 v).read8 b = if b = s.sp - 2 then hiByte v else if b = s.sp - 1 then loByte v else s.read8 b := by
  have e : s.sp - 2 + 1 = s.sp - 1 := by bv_omega
  rw [State.push16, State.read8_write16, e]; rfl

/-- The frame of an exception, byte by byte (60_exceptions.md R504). -/
theorem storesFrame_stackFrame (s : State) (rtn : Word) : StoresFrame s (s.stackFrame rtn) rtn := by
  intro b
  have byte : ∀ (u : State) (k : Word), u.sp = s.sp - k → ∀ v, (u.push8 v).sp = s.sp - (k + 1) ∧
      (u.push8 v).read8 b = if b = s.sp - (k + 1) then v else u.read8 b := by
    intro u k h v
    have e : s.sp - k - 1 = s.sp - (k + 1) := by bv_omega
    exact ⟨by rw [State.push8_sp, h, e], by rw [State.read8_push8, h, e]⟩
  have word : ∀ (u : State) (k : Word), u.sp = s.sp - k → ∀ v, (u.push16 v).sp = s.sp - (k + 2) ∧
      (u.push16 v).read8 b =
        if b = s.sp - (k + 2) then hiByte v else if b = s.sp - (k + 1) then loByte v else u.read8 b := by
    intro u k h v
    have e : s.sp - k - 2 = s.sp - (k + 2) := by bv_omega
    have e' : s.sp - k - 1 = s.sp - (k + 1) := by bv_omega
    exact ⟨by rw [State.push16_sp, h, e], by rw [State.read8_push16, h, e, e']⟩
  have w1 := word s 0 (by simp) rtn
  have w2 := word _ _ w1.1 s.y
  have w3 := word _ _ w2.1 s.x
  have b1 := byte _ _ w3.1 s.a
  have b2 := byte _ _ b1.1 s.b
  have b3 := byte _ _ b2.1 s.ccr
  rw [State.stackFrame, b3.2, b2.2, b1.2, w3.2, w2.2, w1.2]
  rfl

/-- Taking an exception is the entry of Safety (R503). -/
theorem entered_takeException (s : State) (vector rtn : Word) (setsX : Bool) :
    Entered s (s.takeException vector rtn setsX) rtn vector setsX := by
  refine ⟨fun b => ?_, ?_⟩
  · rw [← storesFrame_stackFrame s rtn b]
    exact State.read8_congr (State.enter_mem ..) b
  · have h := flags_congr (State.stackFrame_ccr s rtn)
    have e : ((s.stackFrame rtn).enter vector setsX).read16 vector = (s.stackFrame rtn).read16 vector := by
      simp only [State.read16, State.read8, State.enter_mem, State.enter_ppage]
    unfold State.takeException
    ext1 <;> simp [h, e]

/-- CALL's three bytes. -/
theorem storesCall_of {s u t : State} (hm : u.mem = s.mem) {rtn : Word} {page : Byte}
    (ht : t.mem = ((u.push16 rtn).push8 page).mem) : StoresCall s t (u.sp - 3) page rtn := by
  intro b
  rw [State.read8_congr ht, State.read8_push8, State.read8_push16, State.read8_congr hm, State.push16_sp]
  have e1 : u.sp - 2 - 1 = u.sp - 3 := by bv_omega
  have e2 : u.sp - 3 + 1 = u.sp - 2 := by bv_omega
  have e3 : u.sp - 3 + 2 = u.sp - 1 := by bv_omega
  rw [e1, e2, e3]

/-- The word a store left is read back. -/
theorem read16_of_storesWord {s t : State} {ea v : Word} (h : StoresWord s t ea v) : t.read16 ea = v := by
  have h0 := h ea; have h1 := h (ea + 1)
  have n : ea + 1 ≠ ea := by intro e; bv_omega
  rw [if_pos rfl] at h0; rw [if_neg n, if_pos rfl] at h1
  rw [State.read16, h0, h1, joinBytes_hiByte_loByte]
/-- The page and the return address CALL left are read back. -/
theorem reads_of_storesCall {s t : State} {ea v : Word} {p : Byte} (h : StoresCall s t ea p v) : t.read8 ea = p ∧ t.read16 (ea + 1) = v := by
  have h0 := h ea; have h1 := h (ea + 1); have h2 := h (ea + 2)
  have n : ea + 1 ≠ ea := by intro e; bv_omega
  have n2 : ea + 2 ≠ ea := by intro e; bv_omega
  have n3 : ea + 2 ≠ ea + 1 := by intro e; bv_omega
  rw [if_pos rfl] at h0; rw [if_neg n, if_pos rfl] at h1; rw [if_neg n2, if_neg n3, if_pos rfl] at h2
  have e : ea + 1 + 1 = ea + 2 := by rw [BitVec.add_assoc]; rfl
  exact ⟨h0, by rw [State.read16, e, h1, h2, joinBytes_hiByte_loByte]⟩

/-- The frame is read back from SP on. -/
theorem reads_of_storesFrame {s t : State} {rtn : Word} (h : StoresFrame s t rtn) (hsp : t.sp = s.sp - 9) :
    t.read8 t.sp = s.ccr ∧ t.read8 (t.sp + 1) = s.b ∧ t.read8 (t.sp + 2) = s.a ∧ t.read8 (t.sp + 3) = hiByte s.x ∧
    t.read8 (t.sp + 4) = loByte s.x ∧ t.read8 (t.sp + 5) = hiByte s.y ∧ t.read8 (t.sp + 6) = loByte s.y ∧
    t.read8 (t.sp + 7) = hiByte rtn ∧ t.read8 (t.sp + 8) = loByte rtn := by
  have ne : ∀ p q : Word, p ≠ q → ¬ s.sp - p = s.sp - q := by
    intro p q h e; apply h; bv_omega
  have at_ : ∀ k : Word, t.sp + k = s.sp - (9 - k) := by intro k; rw [hsp]; bv_omega
  refine ⟨?_, ?_, ?_, ?_, ?_, ?_, ?_, ?_, ?_⟩
  · rw [hsp, h, if_pos rfl]
  · rw [at_, h, if_neg (ne _ _ (by decide))]; exact if_pos rfl
  · rw [at_, h]; iterate 2 rw [if_neg (ne _ _ (by decide))]
    exact if_pos rfl
  · rw [at_, h]; iterate 3 rw [if_neg (ne _ _ (by decide))]
    exact if_pos rfl
  · rw [at_, h]; iterate 4 rw [if_neg (ne _ _ (by decide))]
    exact if_pos rfl
  · rw [at_, h]; iterate 5 rw [if_neg (ne _ _ (by decide))]
    exact if_pos rfl
  · rw [at_, h]; iterate 6 rw [if_neg (ne _ _ (by decide))]
    exact if_pos rfl
  · rw [at_, h]; iterate 7 rw [if_neg (ne _ _ (by decide))]
    exact if_pos rfl
  · rw [at_, h]; iterate 8 rw [if_neg (ne _ _ (by decide))]
    exact if_pos rfl

/-! ### Pairs as numbers (10_state.md R22, R25) -/

theorem joinBytes_toNat (h l : Byte) : (joinBytes h l).toNat = h.toNat * 256 + l.toNat := by
  have hb := l.isLt
  rw [joinBytes, BitVec.toNat_append, Nat.shiftLeft_eq, Nat.mul_comm, ← Nat.two_pow_add_eq_or_of_lt hb, Nat.mul_comm]
theorem State.d_toNat (s : State) : s.d.toNat = s.a.toNat * 256 + s.b.toNat := joinBytes_toNat _ _
theorem State.yd_toNat (s : State) : s.yd.toNat = s.y.toNat * 65536 + s.d.toNat := by
  have hb := s.d.isLt
  rw [State.yd, BitVec.toNat_append, Nat.shiftLeft_eq, Nat.mul_comm, ← Nat.two_pow_add_eq_or_of_lt hb, Nat.mul_comm]
theorem State.yd_toInt (s : State) : s.yd.toInt = s.y.toInt * 65536 + s.d.toNat := by
  have h := s.yd_toNat; have hb := s.d.isLt; have hy := s.y.isLt
  rw [BitVec.toInt_eq_toNat_cond, BitVec.toInt_eq_toNat_cond, h]
  split <;> split <;> omega

/-! ### Shifts, steps by one, selections -/

theorem dec_eq : ∀ v : Byte, v - 1 = BitVec.ofInt 8 (v.toInt - 1) ∧ (v == 0x80#8) = overflows 8 (v.toInt - 1) := by
  decide +kernel
theorem inc_eq : ∀ v : Byte, v + 1 = BitVec.ofInt 8 (v.toInt + 1) ∧ (v == 0x7F#8) = overflows 8 (v.toInt + 1) := by
  decide +kernel
theorem neg_eq_ofInt : ∀ v : Byte, 0 - v = BitVec.ofInt 8 (-v.toInt) ∧
    ((0 - v) == 0x80#8) = overflows 8 (-v.toInt) ∧ (!zero (0 - v)) = !zero v := by
  decide +kernel
theorem com_eq : ∀ v : Byte, ~~~v = BitVec.ofInt 8 (-1 - v.toInt) := by decide +kernel
theorem word_dec_eq (x : Word) : x - 1 = BitVec.ofInt 16 (x.toNat - 1) := by
  have := x.isLt
  apply BitVec.eq_of_toNat_eq; simp [BitVec.toNat_sub]; omega
theorem word_inc_eq (x : Word) : x + 1 = BitVec.ofInt 16 (x.toNat + 1) := by
  have := x.isLt
  apply BitVec.eq_of_toNat_eq; simp; omega

theorem shiftL_eq : ∀ v : Byte, shiftL v = BitVec.ofNat 8 (2 * v.toNat) ∧ v.msb = decide (128 ≤ v.toNat) := by
  decide +kernel
theorem shiftR_eq : ∀ v : Byte,
    shiftR v = BitVec.ofNat 8 (v.toNat / 2) ∧ v.getLsbD 0 = decide (v.toNat % 2 = 1) := by
  decide +kernel
theorem shiftAR_eq : ∀ v : Byte, shiftAR v = BitVec.ofInt 8 (v.toInt / 2) := by decide +kernel
theorem rotL_eq : ∀ (c : Bool) (v : Byte), rotL c v = BitVec.ofNat 8 (2 * v.toNat + c.toNat) := by decide +kernel
theorem rotR_eq : ∀ (c : Bool) (v : Byte), rotR c v = BitVec.ofNat 8 (v.toNat / 2 + 128 * c.toNat) := by
  decide +kernel
theorem flagsShift_eq {w : Nat} (s : State) (r : BitVec w) (c : Bool) :
    s.flagsShift r c = { s with ccr := ccrShift s r c } := by
  simp only [State.flagsShift, State.setNZVC, State.setHNZVC, ccrShift, ccrNZVC, isNeg_eq, isZero_eq]
theorem shiftL_word (v : Word) : shiftL v = BitVec.ofNat 16 (2 * v.toNat) ∧ v.msb = decide (32768 ≤ v.toNat) := by
  refine ⟨?_, by simp [BitVec.msb_eq_decide]⟩
  apply BitVec.eq_of_toNat_eq; simp [shiftL, Nat.shiftLeft_eq]; omega
theorem shiftR_word (v : Word) :
    shiftR v = BitVec.ofNat 16 (v.toNat / 2) ∧ v.getLsbD 0 = decide (v.toNat % 2 = 1) := by
  have := v.isLt
  refine ⟨?_, by simpa using getLsbD_eq_div_mod v 0⟩
  apply BitVec.eq_of_toNat_eq; simp [shiftR, Nat.shiftRight_eq_div_pow]; omega

theorem maxOf_eq {w : Nat} (p q : BitVec w) : maxOf p q = if p.toNat < q.toNat then q else p := by
  simp [maxOf, BitVec.ult]
theorem minOf_eq {w : Nat} (p q : BitVec w) : minOf p q = if q.toNat < p.toNat then q else p := by
  simp [minOf, BitVec.ult]
theorem maxOf_eq' {w : Nat} (p q : BitVec w) : maxOf p q = if q.toNat < p.toNat then p else q := by
  rw [maxOf_eq]; split <;> split <;> first | rfl | omega | (apply BitVec.eq_of_toNat_eq; omega)
theorem minOf_eq' {w : Nat} (p q : BitVec w) : minOf p q = if p.toNat < q.toNat then p else q := by
  rw [minOf_eq]; split <;> split <;> first | rfl | omega | (apply BitVec.eq_of_toNat_eq; omega)

/-! ### Branches -/

theorem branchIf_eq (s : State) (c : Bool) (off : Word) (n : Int) (h : off.toInt = n) :
    (Host.Outcome.next (branchIf s c off) : Answer) = branches s c n := by
  subst h
  unfold branchIf branches
  cases c
  · rfl
  · simp [BitVec.ofInt_add, State.goto]

theorem shortBranch_eq (s : State) (c : Bool) (rr : Byte) : shortBranch s c rr = branches s c rr.toInt :=
  branchIf_eq _ _ _ _ (BitVec.toInt_signExtend_of_le (by omega))

theorem longBranch_eq (s : State) (c : Bool) (w : Word) : longBranch s c w = branches s c w.toInt :=
  branchIf_eq _ _ _ _ rfl

/-! ### One register used twice (log 14, 15, 16) -/

/-- A free choice is one of the two. -/
theorem pick_or {α : Type} (k : Nat) (p q : α) : pick k p q = p ∨ pick k p q = q := by
  unfold pick; split <;> simp

theorem hazardVal_ne {s t : State} {r : AutoReg} {o : Option AutoReg} (h : o ≠ some r) :
    hazardVal s t r o = autoVal s r := by simp [hazardVal, h]
theorem hazardWrite_ne {s t : State} {r : AutoReg} {o : Option AutoReg} {v : Word} (h : o ≠ some r) :
    hazardWrite s t r o v = v := by simp [hazardWrite, h]
theorem hazardSpend_ne {t : State} {r : AutoReg} {o : Option AutoReg} (h : o ≠ some r) : hazardSpend t r o = t := by
  simp [hazardSpend, h]
theorem hazardVal_or (s t : State) (r : AutoReg) :
    hazardVal s t r (some r) = autoVal s r ∨ hazardVal s t r (some r) = autoVal t r := by
  simp only [hazardVal, if_true]; exact pick_or _ _ _
theorem hazardWrite_or (s t : State) (r : AutoReg) (v : Word) :
    hazardWrite s t r (some r) v = v ∨ hazardWrite s t r (some r) v = autoVal t r := by
  simp only [hazardWrite, if_true]; exact pick_or _ _ _

end Sys2Proof.Machine
end

