-- ==== Sys2Proof/Laws/Interrupts.lean ====
section
/-! SUPPORT. Choosing an interrupt, waking, and what a fetch can see. -/

namespace Sys2Proof.Machine
open Sys2Proof.Safety

/-- The masks, in words (60_exceptions.md R505, R506). -/
theorem enabled_iff (s : State) (r : IntSource) : enabled s r = true ↔
    (r = .xirq → s.flagX = false) ∧ (isReset r = false → r ≠ .xirq → s.flagI = false) := by
  cases r <;> simp [enabled, isReset]

/-- The request served is one of those standing, and none of them ranks higher (R508). -/
theorem highest_spec : ∀ (l : List IntSource) (c : IntSource),
    highest c l ∈ c :: l ∧ ∀ r ∈ c :: l, rank r ≤ rank (highest c l)
  | [], c => by simp [highest]
  | r :: l, c => by
    have ih := highest_spec l (if rank c < rank r then r else c)
    rw [highest]
    refine ⟨?_, fun q hq => ?_⟩
    · rcases List.mem_cons.1 ih.1 with e | e
      · rw [e]; split <;> simp
      · exact List.mem_cons_of_mem _ (List.mem_cons_of_mem _ e)
    · have h1 := ih.2 (if rank c < rank r then r else c) (by simp)
      rcases List.mem_cons.1 hq with rfl | hq
      · refine le_trans ?_ h1; split <;> omega
      · rcases List.mem_cons.1 hq with rfl | hq
        · refine le_trans ?_ h1; split <;> omega
        · exact ih.2 q (by simp [hq])

/-- Waking by an interrupt: the entry without a second stacking (R514). -/
theorem wake_eq (s : State) (src : IntSource) (h : isReset src = false) : wake src s =
    { s with
      ccr := ccrOf s.flagS (s.flagX || src == .xirq) s.flagH true s.flagN s.flagZ s.flagV s.flagC
      pc := s.read16 (vectorOf src)
      run := .running
      stale := [] } := by
  rw [wake, if_neg (by simp [h])]
  ext1 <;> simp

/-- With nothing in flight a fetch is a read. -/
theorem fetchByte_none (s : State) (k : Nat) (a : Word) (h : s.stale = []) : fetchByte s k a = s.read8 a := by
  rw [fetchByte, h]; rfl

theorem nthByte_mem : ∀ (l : List Byte) (n : Nat) (d : Byte), nthByte l n d = d ∨ nthByte l n d ∈ l
  | [], _, _ => .inl rfl
  | c :: r, 0, _ => .inr (by simp [nthByte])
  | c :: r, n + 1, d => (nthByte_mem r n d).imp id fun h => by simp [nthByte, h]

theorem olderBytes_mem : ∀ (l : List Host.Cell) (n : Nat) (v : Byte), v ∈ olderBytes l n → (n, v) ∈ l
  | [], _, _ => by simp [olderBytes]
  | c :: r, n, v => by
    intro h
    simp only [olderBytes] at h
    split at h
    · next hc =>
      rcases List.mem_cons.1 h with rfl | h
      · simp [← hc]
      · exact List.mem_cons_of_mem _ (olderBytes_mem r n v h)
    · exact List.mem_cons_of_mem _ (olderBytes_mem r n v h)

end Sys2Proof.Machine
end

