-- ==== Sys2Proof/Laws/PerInstr.lean ====
section
/-! SUPPORT. Statements made of every instruction, one lemma per constructor. `Length`: a well-formed instruction has
one to six bytes (30_encoding.md R80, R84). -/

namespace Sys2Proof.Laws

/-! ### Lengths of operands -/

theorem encIdx_length (i : Idx) : 1 ≤ (encIdx i).length ∧ (encIdx i).length ≤ 3 := by
  cases i <;> simp [encIdx]
theorem encIdx_short (i : Idx) (h : i.isShort = true) : (encIdx i).length = 1 := by
  cases i <;> simp_all [encIdx, Idx.isShort]
theorem encAddr_length (p q r : Byte) (m : Addr) :
    2 ≤ (encAddr p q r m).length ∧ (encAddr p q r m).length ≤ 4 := by
  cases m with
  | idx i => have := encIdx_length i; simp [encAddr]; omega
  | _ => simp [encAddr, encWord]
theorem encNoDir_length (q r : Byte) (m : Addr) (h : m.noDir = true) :
    1 ≤ (encNoDir q r m).length ∧ (encNoDir q r m).length ≤ 6 := by
  cases m with
  | dir _ => simp [Addr.noDir] at h
  | idx i => have := encIdx_length i; simp [encNoDir]; omega
  | ext _ => simp [encNoDir, encWord]
theorem encSrc8_length (p q r u : Byte) (o : Src8) :
    1 ≤ (encSrc8 p q r u o).length ∧ (encSrc8 p q r u o).length ≤ 6 := by
  cases o with
  | imm _ => simp [encSrc8]
  | mem m => have := encAddr_length q r u m; simp only [encSrc8]; omega
theorem encSrc16_length (p q r u : Byte) (o : Src16) :
    1 ≤ (encSrc16 p q r u o).length ∧ (encSrc16 p q r u o).length ≤ 6 := by
  cases o with
  | imm _ => simp [encSrc16, encWord]
  | mem m => have := encAddr_length q r u m; simp only [encSrc16]; omega

/-! ### The family -/

/-- What `Length` says of an instruction. -/
def Length.Statement (i : Instr) : Prop := i.wf = true → 1 ≤ (encode i).length ∧ (encode i).length ≤ 6

/-- A fixed number of bytes. -/
theorem Length.fixed {i : Instr} (n : Nat) (h : (encode i).length = n)
    (hn : (decide (1 ≤ n) && decide (n ≤ 6)) = true) : Length.Statement i := by
  intro _
  simp only [Bool.and_eq_true, decide_eq_true_eq] at hn
  omega

/-- One or two bytes, then an indexed operand. -/
theorem Length.indexed {i : Instr} (n : Nat) (j : Idx) (h : (encode i).length = (encIdx j).length + n)
    (hn : (decide (n ≤ 3)) = true) : Length.Statement i := by
  intro _
  have := encIdx_length j
  have := of_decide_eq_true hn
  omega

/-- A memory operand, then one or two bytes. -/
theorem Length.addressed {i : Instr} (p q r : Byte) (m : Addr) (l : List Byte) (h : encode i = encAddr p q r m ++ l)
    (hl : l.length ≤ 2) : Length.Statement i := by
  intro _
  have := encAddr_length p q r m
  rw [h, List.length_append]
  omega

theorem Length.bra (rr : Byte) : Length.Statement (.bra rr) := Length.fixed 2 rfl rfl
theorem Length.brn (rr : Byte) : Length.Statement (.brn rr) := Length.fixed 2 rfl rfl
theorem Length.bls (rr : Byte) : Length.Statement (.bls rr) := Length.fixed 2 rfl rfl
theorem Length.bhs (rr : Byte) : Length.Statement (.bhs rr) := Length.fixed 2 rfl rfl
theorem Length.blo (rr : Byte) : Length.Statement (.blo rr) := Length.fixed 2 rfl rfl
theorem Length.bne (rr : Byte) : Length.Statement (.bne rr) := Length.fixed 2 rfl rfl
theorem Length.bvc (rr : Byte) : Length.Statement (.bvc rr) := Length.fixed 2 rfl rfl
theorem Length.bvs (rr : Byte) : Length.Statement (.bvs rr) := Length.fixed 2 rfl rfl
theorem Length.bpl (rr : Byte) : Length.Statement (.bpl rr) := Length.fixed 2 rfl rfl
theorem Length.bmi (rr : Byte) : Length.Statement (.bmi rr) := Length.fixed 2 rfl rfl
theorem Length.blt (rr : Byte) : Length.Statement (.blt rr) := Length.fixed 2 rfl rfl
theorem Length.ble (rr : Byte) : Length.Statement (.ble rr) := Length.fixed 2 rfl rfl
theorem Length.bcc (rr : Byte) : Length.Statement (.bcc rr) := Length.fixed 2 rfl rfl
theorem Length.bcs (rr : Byte) : Length.Statement (.bcs rr) := Length.fixed 2 rfl rfl
theorem Length.bsr (rr : Byte) : Length.Statement (.bsr rr) := Length.fixed 2 rfl rfl
theorem Length.brclr (m : Addr) (mm rr : Byte) : Length.Statement (.brclr m mm rr) :=
  Length.addressed 0x4F#8 0x0F#8 0x1F#8 m [mm, rr] rfl (Nat.le_of_ble_eq_true rfl)
theorem Length.brset (m : Addr) (mm rr : Byte) : Length.Statement (.brset m mm rr) :=
  Length.addressed 0x4E#8 0x0E#8 0x1E#8 m [mm, rr] rfl (Nat.le_of_ble_eq_true rfl)
theorem Length.ibeq (c : Cntr) (off : BitVec 9) : Length.Statement (.ibeq c off) := Length.fixed 3 rfl rfl
theorem Length.ibne (c : Cntr) (off : BitVec 9) : Length.Statement (.ibne c off) := Length.fixed 3 rfl rfl
theorem Length.andcc (ii : Byte) : Length.Statement (.andcc ii) := Length.fixed 2 rfl rfl
theorem Length.clc : Length.Statement .clc := Length.fixed 2 rfl rfl
theorem Length.cli : Length.Statement .cli := Length.fixed 2 rfl rfl
theorem Length.clv : Length.Statement .clv := Length.fixed 2 rfl rfl
theorem Length.bita (o : Src8) : Length.Statement (.bita o) := fun _ => encSrc8_length ..
theorem Length.bitb (o : Src8) : Length.Statement (.bitb o) := fun _ => encSrc8_length ..
theorem Length.bset (m : Addr) (mm : Byte) : Length.Statement (.bset m mm) :=
  Length.addressed 0x4C#8 0x0C#8 0x1C#8 m [mm] rfl (Nat.le_of_ble_eq_true rfl)
theorem Length.cba : Length.Statement .cba := Length.fixed 2 rfl rfl
theorem Length.clr (m : Addr) : Length.Statement (.clr m) := fun h => encNoDir_length _ _ _ h
theorem Length.clra : Length.Statement .clra := Length.fixed 1 rfl rfl
theorem Length.clrb : Length.Statement .clrb := Length.fixed 1 rfl rfl
theorem Length.cmpa (o : Src8) : Length.Statement (.cmpa o) := fun _ => encSrc8_length ..
theorem Length.cmpb (o : Src8) : Length.Statement (.cmpb o) := fun _ => encSrc8_length ..
theorem Length.eora (o : Src8) : Length.Statement (.eora o) := fun _ => encSrc8_length ..
theorem Length.eorb (o : Src8) : Length.Statement (.eorb o) := fun _ => encSrc8_length ..
theorem Length.tst (m : Addr) : Length.Statement (.tst m) := fun h => encNoDir_length _ _ _ h
theorem Length.tsta : Length.Statement .tsta := Length.fixed 1 rfl rfl
theorem Length.tstb : Length.Statement .tstb := Length.fixed 1 rfl rfl
theorem Length.dec (m : Addr) : Length.Statement (.dec m) := fun h => encNoDir_length _ _ _ h
theorem Length.deca : Length.Statement .deca := Length.fixed 1 rfl rfl
theorem Length.decb : Length.Statement .decb := Length.fixed 1 rfl rfl
theorem Length.des : Length.Statement .des := Length.fixed 2 rfl rfl
theorem Length.dex : Length.Statement .dex := Length.fixed 1 rfl rfl
theorem Length.dey : Length.Statement .dey := Length.fixed 1 rfl rfl
theorem Length.ediv : Length.Statement .ediv := Length.fixed 1 rfl rfl
theorem Length.edivs : Length.Statement .edivs := Length.fixed 2 rfl rfl
theorem Length.emacs (hhll : Word) : Length.Statement (.emacs hhll) := Length.fixed 4 rfl rfl
theorem Length.emul : Length.Statement .emul := Length.fixed 1 rfl rfl
theorem Length.emuls : Length.Statement .emuls := Length.fixed 2 rfl rfl
theorem Length.fdiv : Length.Statement .fdiv := Length.fixed 2 rfl rfl
theorem Length.idiv : Length.Statement .idiv := Length.fixed 2 rfl rfl
theorem Length.idivs : Length.Statement .idivs := Length.fixed 2 rfl rfl
theorem Length.sba : Length.Statement .sba := Length.fixed 2 rfl rfl
theorem Length.suba (o : Src8) : Length.Statement (.suba o) := fun _ => encSrc8_length ..
theorem Length.subb (o : Src8) : Length.Statement (.subb o) := fun _ => encSrc8_length ..
theorem Length.emaxd (i : Idx) : Length.Statement (.emaxd i) := Length.indexed 2 i rfl rfl
theorem Length.emaxm (i : Idx) : Length.Statement (.emaxm i) := Length.indexed 2 i rfl rfl
theorem Length.emind (i : Idx) : Length.Statement (.emind i) := Length.indexed 2 i rfl rfl
theorem Length.eminm (i : Idx) : Length.Statement (.eminm i) := Length.indexed 2 i rfl rfl
theorem Length.maxa (i : Idx) : Length.Statement (.maxa i) := Length.indexed 2 i rfl rfl
theorem Length.maxm (i : Idx) : Length.Statement (.maxm i) := Length.indexed 2 i rfl rfl
theorem Length.etbl (i : Idx) : Length.Statement (.etbl i) := Length.indexed 2 i rfl rfl
theorem Length.lsl (m : Addr) : Length.Statement (.lsl m) := fun h => encNoDir_length _ _ _ h
theorem Length.lsr (m : Addr) : Length.Statement (.lsr m) := fun h => encNoDir_length _ _ _ h
theorem Length.rol (m : Addr) : Length.Statement (.rol m) := fun h => encNoDir_length _ _ _ h
theorem Length.ror (m : Addr) : Length.Statement (.ror m) := fun h => encNoDir_length _ _ _ h
theorem Length.asl (m : Addr) : Length.Statement (.asl m) := fun h => encNoDir_length _ _ _ h
theorem Length.lsla : Length.Statement .lsla := Length.fixed 1 rfl rfl
theorem Length.lslb : Length.Statement .lslb := Length.fixed 1 rfl rfl
theorem Length.lsld : Length.Statement .lsld := Length.fixed 1 rfl rfl
theorem Length.lsra : Length.Statement .lsra := Length.fixed 1 rfl rfl
theorem Length.lsrb : Length.Statement .lsrb := Length.fixed 1 rfl rfl
theorem Length.lsrd : Length.Statement .lsrd := Length.fixed 1 rfl rfl
theorem Length.rola : Length.Statement .rola := Length.fixed 1 rfl rfl
theorem Length.rolb : Length.Statement .rolb := Length.fixed 1 rfl rfl
theorem Length.rora : Length.Statement .rora := Length.fixed 1 rfl rfl
theorem Length.rorb : Length.Statement .rorb := Length.fixed 1 rfl rfl
theorem Length.asla : Length.Statement .asla := Length.fixed 1 rfl rfl
theorem Length.aslb : Length.Statement .aslb := Length.fixed 1 rfl rfl
theorem Length.asld : Length.Statement .asld := Length.fixed 1 rfl rfl
theorem Length.exg (r1 r2 : XReg) : Length.Statement (.exg r1 r2) := Length.fixed 2 rfl rfl
theorem Length.tfr (r1 r2 : XReg) : Length.Statement (.tfr r1 r2) := Length.fixed 2 rfl rfl
theorem Length.tsx : Length.Statement .tsx := Length.fixed 2 rfl rfl
theorem Length.tsy : Length.Statement .tsy := Length.fixed 2 rfl rfl
theorem Length.txs : Length.Statement .txs := Length.fixed 2 rfl rfl
theorem Length.tys : Length.Statement .tys := Length.fixed 2 rfl rfl
theorem Length.xgdx : Length.Statement .xgdx := Length.fixed 2 rfl rfl
theorem Length.xgdy : Length.Statement .xgdy := Length.fixed 2 rfl rfl
theorem Length.leax (i : Idx) : Length.Statement (.leax i) := Length.indexed 1 i rfl rfl
theorem Length.leay (i : Idx) : Length.Statement (.leay i) := Length.indexed 1 i rfl rfl
theorem Length.leas (i : Idx) : Length.Statement (.leas i) := Length.indexed 1 i rfl rfl
theorem Length.psha : Length.Statement .psha := Length.fixed 1 rfl rfl
theorem Length.pshb : Length.Statement .pshb := Length.fixed 1 rfl rfl
theorem Length.pshc : Length.Statement .pshc := Length.fixed 1 rfl rfl
theorem Length.pshd : Length.Statement .pshd := Length.fixed 1 rfl rfl
theorem Length.pshx : Length.Statement .pshx := Length.fixed 1 rfl rfl
theorem Length.pshy : Length.Statement .pshy := Length.fixed 1 rfl rfl
theorem Length.pula : Length.Statement .pula := Length.fixed 1 rfl rfl
theorem Length.pulb : Length.Statement .pulb := Length.fixed 1 rfl rfl
theorem Length.pulc : Length.Statement .pulc := Length.fixed 1 rfl rfl
theorem Length.puld : Length.Statement .puld := Length.fixed 1 rfl rfl
theorem Length.pulx : Length.Statement .pulx := Length.fixed 1 rfl rfl
theorem Length.puly : Length.Statement .puly := Length.fixed 1 rfl rfl
theorem Length.sts (m : Addr) : Length.Statement (.sts m) :=
  Length.addressed 0x5F#8 0x6F#8 0x7F#8 m [] (List.append_nil _).symm (Nat.le_of_ble_eq_true rfl)
theorem Length.stx (m : Addr) : Length.Statement (.stx m) :=
  Length.addressed 0x5E#8 0x6E#8 0x7E#8 m [] (List.append_nil _).symm (Nat.le_of_ble_eq_true rfl)
theorem Length.sty (m : Addr) : Length.Statement (.sty m) :=
  Length.addressed 0x5D#8 0x6D#8 0x7D#8 m [] (List.append_nil _).symm (Nat.le_of_ble_eq_true rfl)
theorem Length.call (t : CallTo) : Length.Statement (.call t) := by
  intro _
  cases t with
  | ext _ _ => simp [encode, encCall, encWord]
  | idx i _ => have := encIdx_length i; simp [encode, encCall]; omega
  | ind i => have := encIdx_length i; simp [encode, encCall]; omega
theorem Length.rtc : Length.Statement .rtc := Length.fixed 1 rfl rfl
theorem Length.rti : Length.Statement .rti := Length.fixed 1 rfl rfl
theorem Length.rts : Length.Statement .rts := Length.fixed 1 rfl rfl
theorem Length.stop : Length.Statement .stop := Length.fixed 2 rfl rfl
theorem Length.trap (tn : Byte) : Length.Statement (.trap tn) := Length.fixed 2 rfl rfl
theorem Length.wai : Length.Statement .wai := Length.fixed 1 rfl rfl
theorem Length.mem : Length.Statement .mem := Length.fixed 1 rfl rfl
theorem Length.rev : Length.Statement .rev := Length.fixed 2 rfl rfl
theorem Length.revw : Length.Statement .revw := Length.fixed 2 rfl rfl
theorem Length.wav : Length.Statement .wav := Length.fixed 2 rfl rfl
theorem Length.wavr : Length.Statement .wavr := Length.fixed 1 rfl rfl
theorem Length.aba : Length.Statement .aba := Length.fixed 2 rfl rfl
theorem Length.abx : Length.Statement .abx := Length.fixed 2 rfl rfl
theorem Length.aby : Length.Statement .aby := Length.fixed 2 rfl rfl
theorem Length.ins : Length.Statement .ins := Length.fixed 2 rfl rfl
theorem Length.adca (o : Src8) : Length.Statement (.adca o) := fun _ => encSrc8_length ..
theorem Length.adcb (o : Src8) : Length.Statement (.adcb o) := fun _ => encSrc8_length ..
theorem Length.adda (o : Src8) : Length.Statement (.adda o) := fun _ => encSrc8_length ..
theorem Length.addb (o : Src8) : Length.Statement (.addb o) := fun _ => encSrc8_length ..
theorem Length.addd (o : Src16) : Length.Statement (.addd o) := fun _ => encSrc16_length ..
theorem Length.anda (o : Src8) : Length.Statement (.anda o) := fun _ => encSrc8_length ..
theorem Length.andb (o : Src8) : Length.Statement (.andb o) := fun _ => encSrc8_length ..
theorem Length.asr (m : Addr) : Length.Statement (.asr m) := fun h => encNoDir_length _ _ _ h
theorem Length.asra : Length.Statement .asra := Length.fixed 1 rfl rfl
theorem Length.asrb : Length.Statement .asrb := Length.fixed 1 rfl rfl
theorem Length.bclr (m : Addr) (mm : Byte) : Length.Statement (.bclr m mm) :=
  Length.addressed 0x4D#8 0x0D#8 0x1D#8 m [mm] rfl (Nat.le_of_ble_eq_true rfl)
theorem Length.beq (rr : Byte) : Length.Statement (.beq rr) := Length.fixed 2 rfl rfl
theorem Length.bge (rr : Byte) : Length.Statement (.bge rr) := Length.fixed 2 rfl rfl
theorem Length.bgt (rr : Byte) : Length.Statement (.bgt rr) := Length.fixed 2 rfl rfl
theorem Length.bhi (rr : Byte) : Length.Statement (.bhi rr) := Length.fixed 2 rfl rfl
theorem Length.bgnd : Length.Statement .bgnd := Length.fixed 1 rfl rfl
theorem Length.com (m : Addr) : Length.Statement (.com m) := fun h => encNoDir_length _ _ _ h
theorem Length.coma : Length.Statement .coma := Length.fixed 1 rfl rfl
theorem Length.comb : Length.Statement .comb := Length.fixed 1 rfl rfl
theorem Length.cpd (o : Src16) : Length.Statement (.cpd o) := fun _ => encSrc16_length ..
theorem Length.cps (o : Src16) : Length.Statement (.cps o) := fun _ => encSrc16_length ..
theorem Length.cpx (o : Src16) : Length.Statement (.cpx o) := fun _ => encSrc16_length ..
theorem Length.cpy (o : Src16) : Length.Statement (.cpy o) := fun _ => encSrc16_length ..
theorem Length.daa : Length.Statement .daa := Length.fixed 2 rfl rfl
theorem Length.dbeq (c : Cntr) (off : BitVec 9) : Length.Statement (.dbeq c off) := Length.fixed 3 rfl rfl
theorem Length.dbne (c : Cntr) (off : BitVec 9) : Length.Statement (.dbne c off) := Length.fixed 3 rfl rfl
theorem Length.tbeq (c : Cntr) (off : BitVec 9) : Length.Statement (.tbeq c off) := Length.fixed 3 rfl rfl
theorem Length.tbne (c : Cntr) (off : BitVec 9) : Length.Statement (.tbne c off) := Length.fixed 3 rfl rfl
theorem Length.inc (m : Addr) : Length.Statement (.inc m) := fun h => encNoDir_length _ _ _ h
theorem Length.inca : Length.Statement .inca := Length.fixed 1 rfl rfl
theorem Length.incb : Length.Statement .incb := Length.fixed 1 rfl rfl
theorem Length.inx : Length.Statement .inx := Length.fixed 1 rfl rfl
theorem Length.iny : Length.Statement .iny := Length.fixed 1 rfl rfl
theorem Length.jmp (m : Addr) : Length.Statement (.jmp m) := fun h => encNoDir_length _ _ _ h
theorem Length.jsr (m : Addr) : Length.Statement (.jsr m) :=
  Length.addressed 0x17#8 0x15#8 0x16#8 m [] (List.append_nil _).symm (Nat.le_of_ble_eq_true rfl)
theorem Length.lbra (qqrr : Word) : Length.Statement (.lbra qqrr) := Length.fixed 4 rfl rfl
theorem Length.lbrn (qqrr : Word) : Length.Statement (.lbrn qqrr) := Length.fixed 4 rfl rfl
theorem Length.lbhi (qqrr : Word) : Length.Statement (.lbhi qqrr) := Length.fixed 4 rfl rfl
theorem Length.lbls (qqrr : Word) : Length.Statement (.lbls qqrr) := Length.fixed 4 rfl rfl
theorem Length.lbcc (qqrr : Word) : Length.Statement (.lbcc qqrr) := Length.fixed 4 rfl rfl
theorem Length.lbcs (qqrr : Word) : Length.Statement (.lbcs qqrr) := Length.fixed 4 rfl rfl
theorem Length.lbne (qqrr : Word) : Length.Statement (.lbne qqrr) := Length.fixed 4 rfl rfl
theorem Length.lbeq (qqrr : Word) : Length.Statement (.lbeq qqrr) := Length.fixed 4 rfl rfl
theorem Length.lbvc (qqrr : Word) : Length.Statement (.lbvc qqrr) := Length.fixed 4 rfl rfl
theorem Length.lbvs (qqrr : Word) : Length.Statement (.lbvs qqrr) := Length.fixed 4 rfl rfl
theorem Length.lbpl (qqrr : Word) : Length.Statement (.lbpl qqrr) := Length.fixed 4 rfl rfl
theorem Length.lbmi (qqrr : Word) : Length.Statement (.lbmi qqrr) := Length.fixed 4 rfl rfl
theorem Length.lbge (qqrr : Word) : Length.Statement (.lbge qqrr) := Length.fixed 4 rfl rfl
theorem Length.lblt (qqrr : Word) : Length.Statement (.lblt qqrr) := Length.fixed 4 rfl rfl
theorem Length.lbgt (qqrr : Word) : Length.Statement (.lbgt qqrr) := Length.fixed 4 rfl rfl
theorem Length.lble (qqrr : Word) : Length.Statement (.lble qqrr) := Length.fixed 4 rfl rfl
theorem Length.lbhs (qqrr : Word) : Length.Statement (.lbhs qqrr) := Length.fixed 4 rfl rfl
theorem Length.lblo (qqrr : Word) : Length.Statement (.lblo qqrr) := Length.fixed 4 rfl rfl
theorem Length.ldaa (o : Src8) : Length.Statement (.ldaa o) := fun _ => encSrc8_length ..
theorem Length.ldab (o : Src8) : Length.Statement (.ldab o) := fun _ => encSrc8_length ..
theorem Length.ldd (o : Src16) : Length.Statement (.ldd o) := fun _ => encSrc16_length ..
theorem Length.lds (o : Src16) : Length.Statement (.lds o) := fun _ => encSrc16_length ..
theorem Length.ldx (o : Src16) : Length.Statement (.ldx o) := fun _ => encSrc16_length ..
theorem Length.ldy (o : Src16) : Length.Statement (.ldy o) := fun _ => encSrc16_length ..
theorem Length.mina (i : Idx) : Length.Statement (.mina i) := Length.indexed 2 i rfl rfl
theorem Length.minm (i : Idx) : Length.Statement (.minm i) := Length.indexed 2 i rfl rfl
theorem Length.movb (src : Src8) (dst : Addr) : Length.Statement (.movb src dst) := by
  intro h
  simp only [Instr.wf, Bool.and_eq_true] at h
  obtain ⟨h1, h2⟩ := h
  rcases src with v | a | a | i <;> rcases dst with b | b | j <;> simp only [Src8.isMove, Addr.isMove] at h1 h2 <;>
    first
      | exact absurd h1 (by decide)
      | exact absurd h2 (by decide)
      | (simp [encode, encMovb, encWord]; done)
      | (have := encIdx_short _ h2; simp [encode, encMovb, encWord, this]; done)
      | (have := encIdx_short _ h1; simp [encode, encMovb, encWord, this]; done)
      | (have e1 := encIdx_short _ h1; have e2 := encIdx_short _ h2; simp [encode, encMovb, e1, e2])
theorem Length.movw (src : Src16) (dst : Addr) : Length.Statement (.movw src dst) := by
  intro h
  simp only [Instr.wf, Bool.and_eq_true] at h
  obtain ⟨h1, h2⟩ := h
  rcases src with v | a | a | i <;> rcases dst with b | b | j <;> simp only [Src16.isMove, Addr.isMove] at h1 h2 <;>
    first
      | exact absurd h1 (by decide)
      | exact absurd h2 (by decide)
      | (simp [encode, encMovw, encWord]; done)
      | (have := encIdx_short _ h2; simp [encode, encMovw, encWord, this]; done)
      | (have := encIdx_short _ h1; simp [encode, encMovw, encWord, this]; done)
      | (have e1 := encIdx_short _ h1; have e2 := encIdx_short _ h2; simp [encode, encMovw, e1, e2])
theorem Length.mul : Length.Statement .mul := Length.fixed 1 rfl rfl
theorem Length.neg (m : Addr) : Length.Statement (.neg m) := fun h => encNoDir_length _ _ _ h
theorem Length.nega : Length.Statement .nega := Length.fixed 1 rfl rfl
theorem Length.negb : Length.Statement .negb := Length.fixed 1 rfl rfl
theorem Length.nop : Length.Statement .nop := Length.fixed 1 rfl rfl
theorem Length.oraa (o : Src8) : Length.Statement (.oraa o) := fun _ => encSrc8_length ..
theorem Length.orab (o : Src8) : Length.Statement (.orab o) := fun _ => encSrc8_length ..
theorem Length.orcc (ii : Byte) : Length.Statement (.orcc ii) := Length.fixed 2 rfl rfl
theorem Length.sec : Length.Statement .sec := Length.fixed 2 rfl rfl
theorem Length.sei : Length.Statement .sei := Length.fixed 2 rfl rfl
theorem Length.sev : Length.Statement .sev := Length.fixed 2 rfl rfl
theorem Length.sbca (o : Src8) : Length.Statement (.sbca o) := fun _ => encSrc8_length ..
theorem Length.sbcb (o : Src8) : Length.Statement (.sbcb o) := fun _ => encSrc8_length ..
theorem Length.sex (r1 : R8) (r2 : R16) : Length.Statement (.sex r1 r2) := Length.fixed 2 rfl rfl
theorem Length.staa (m : Addr) : Length.Statement (.staa m) :=
  Length.addressed 0x5A#8 0x6A#8 0x7A#8 m [] (List.append_nil _).symm (Nat.le_of_ble_eq_true rfl)
theorem Length.stab (m : Addr) : Length.Statement (.stab m) :=
  Length.addressed 0x5B#8 0x6B#8 0x7B#8 m [] (List.append_nil _).symm (Nat.le_of_ble_eq_true rfl)
theorem Length.std (m : Addr) : Length.Statement (.std m) :=
  Length.addressed 0x5C#8 0x6C#8 0x7C#8 m [] (List.append_nil _).symm (Nat.le_of_ble_eq_true rfl)
theorem Length.subd (o : Src16) : Length.Statement (.subd o) := fun _ => encSrc16_length ..
theorem Length.swi : Length.Statement .swi := Length.fixed 1 rfl rfl
theorem Length.tab : Length.Statement .tab := Length.fixed 2 rfl rfl
theorem Length.tba : Length.Statement .tba := Length.fixed 2 rfl rfl
theorem Length.tap : Length.Statement .tap := Length.fixed 2 rfl rfl
theorem Length.tpa : Length.Statement .tpa := Length.fixed 2 rfl rfl
theorem Length.tbl (i : Idx) : Length.Statement (.tbl i) := Length.indexed 2 i rfl rfl
end Sys2Proof.Laws
end

