-- ==== Sys2Proof/Machine/Run.lean ====
section
/-! DEFINITION. A run of steps, ended by the parameter `HaltCondition` (00_scope.md R6, 70_reset_and_hazards.md R570). -/

namespace Sys2Proof.Machine

/-- Run at most `n` steps from `s`, ending at the first state `halts` holds of (D28); a step that stops ends the run. WAI, STOP
and a branch to itself end none (R570). -/
def runUntil (halts : State → Bool) : Nat → State → Answer
  | 0, s => .next s
  | n + 1, s =>
    if halts s then .next s
    else match step s with
      | .next t => runUntil halts n t
      | .fault f => .fault f
      | .refused r => .refused r

end Sys2Proof.Machine
end

