-- ==== Sys2Proof/Laws/Run.lean ====
section
/-! SUPPORT. What every step keeps, a run keeps. -/

namespace Sys2Proof.Machine

/-- An invariant of `step` holds where a run ends, whatever ends it (70_reset_and_hazards.md R570). -/
theorem runUntil_keeps {Inv : State → Prop} (keeps : ∀ s t, Inv s → step s = .next t → Inv t) (halts : State → Bool) :
    ∀ (n : Nat) (s t : State), Inv s → runUntil halts n s = .next t → Inv t
  | 0, s, t, hs, h => by cases h; exact hs
  | n + 1, s, t, hs, h => by
    rw [runUntil] at h
    split at h
    · cases h; exact hs
    · split at h
      · next u hu => exact runUntil_keeps keeps halts n u t (keeps s u hs hu) h
      · cases h
      · cases h

/-- A run that starts where it is to end takes no step. -/
theorem runUntil_halted {halts : State → Bool} {s : State} (h : halts s = true) (n : Nat) : runUntil halts n s = .next s := by
  cases n <;> simp [runUntil, h]

end Sys2Proof.Machine
end

