-- ==== Sys2Proof/Tests/Slice0.lean ====
section
/-! SUPPORT. Tests. The words and the results are written out from the spec: from the encodings of spec/opcode_table.json
and the rules, from the vectors V<n> of 95_test_vectors.md, or by hand from the rule named. Each step test runs one step. -/

namespace Sys2Proof.Tests

open Sys2Proof Sys2Proof.Machine Sys2Proof.Safety

/-! ### Helpers -/

/-- The step answered a next state of which `p` holds. -/
def okay (o : Answer) (p : State → Bool) : Bool :=
  match o with
  | .next t => p t
  | .fault _ | .refused _ => false

/-- A state to start from. -/
def base : State := { State.reset with pc := 0x4000#16, sp := 0x0C00#16 }

/-- The bytes stored at PC. -/
def load (s : State) (bs : List Byte) : State := { s with mem := placeBytes s.ppage s.pc bs s.mem }

/-- The flags N, Z, V, C. -/
def nzvc (t : State) : Byte := t.ccr &&& 0x0F#8

/-! ### Decoding, one word of each row (its first, if it has several) -/

/-- BSR, IBEQ, IBNE, DEX, DEY, RTC, RTI, MEM, BCLR, BGND (spec/opcode_table.json). -/
theorem test_decode_page1_0_0 :
    decode [0x07#8, 0xFB#8] = .ok (.bsr 0xFB#8, []) ∧
    decode [0x04#8, 0x97#8, 0xFB#8] = .ok (.ibeq .sp (-5), []) ∧
    decode [0x04#8, 0xB0#8, 0xFB#8] = .ok (.ibne .a (-5), []) ∧
    decode [0x09#8] = .ok (.dex, []) ∧
    decode [0x03#8] = .ok (.dey, []) ∧
    decode [0x0A#8] = .ok (.rtc, []) ∧
    decode [0x0B#8] = .ok (.rti, []) ∧
    decode [0x01#8] = .ok (.mem, []) ∧
    decode [0x0D#8, 0x9F#8, 0x81#8] = .ok (.bclr (.idx (.off5 .sp (-1))) 0x81#8, []) ∧
    decode [0x00#8] = .ok (.bgnd, []) := by
  decide

/-- DBEQ, DBNE, TBEQ, TBNE, INX, INY, JMP (spec/opcode_table.json). -/
theorem test_decode_page1_0_1 :
    decode [0x04#8, 0x11#8, 0xFB#8] = .ok (.dbeq .b (-5), []) ∧
    decode [0x04#8, 0x34#8, 0xFB#8] = .ok (.dbne .d (-5), []) ∧
    decode [0x04#8, 0x55#8, 0xFB#8] = .ok (.tbeq .x (-5), []) ∧
    decode [0x04#8, 0x76#8, 0xFB#8] = .ok (.tbne .y (-5), []) ∧
    decode [0x08#8] = .ok (.inx, []) ∧
    decode [0x02#8] = .ok (.iny, []) ∧
    decode [0x06#8, 0x18#8, 0x45#8] = .ok (.jmp (.ext 0x1845#16), []) := by
  decide

/-- BRSET, ANDCC, CLC, CLI, CLV, DES, EDIV, EMUL, LEAX, LEAY (spec/opcode_table.json). -/
theorem test_decode_page1_1_0 :
    decode [0x1E#8, 0x18#8, 0x45#8, 0x81#8, 0xFA#8] = .ok (.brset (.ext 0x1845#16) 0x81#8 0xFA#8, []) ∧
    decode [0x10#8, 0xFB#8] = .ok (.andcc 0xFB#8, []) ∧
    decode [0x10#8, 0xFE#8] = .ok (.andcc 0xFE#8, []) ∧
    decode [0x10#8, 0xEF#8] = .ok (.andcc 0xEF#8, []) ∧
    decode [0x10#8, 0xFD#8] = .ok (.andcc 0xFD#8, []) ∧
    decode [0x1B#8, 0x9F#8] = .ok (.leas (.off5 .sp (-1)), []) ∧
    decode [0x11#8] = .ok (.ediv, []) ∧
    decode [0x13#8] = .ok (.emul, []) ∧
    decode [0x1A#8, 0xF6#8] = .ok (.leax (.acc .sp .d), []) ∧
    decode [0x19#8, 0xF0#8, 0x7F#8] = .ok (.leay (.off9 .sp 127), []) := by
  decide

/-- LEAS, ABX, ABY, INS, JSR, MUL, ORCC, SEC, SEI, SEV (spec/opcode_table.json). -/
theorem test_decode_page1_1_1 :
    decode [0x1B#8, 0xEA#8, 0xFF#8, 0xF0#8] = .ok (.leas (.off16 .y 0xFFF0#16), []) ∧
    decode [0x1A#8, 0xE5#8] = .ok (.leax (.acc .x .b), []) ∧
    decode [0x19#8, 0xED#8] = .ok (.leay (.acc .y .b), []) ∧
    decode [0x1B#8, 0x81#8] = .ok (.leas (.off5 .sp 1), []) ∧
    decode [0x15#8, 0xE5#8] = .ok (.jsr (.idx (.acc .x .b)), []) ∧
    decode [0x12#8] = .ok (.mul, []) ∧
    decode [0x14#8, 0xFB#8] = .ok (.orcc 0xFB#8, []) ∧
    decode [0x14#8, 0x01#8] = .ok (.orcc 0x01#8, []) ∧
    decode [0x14#8, 0x10#8] = .ok (.orcc 0x10#8, []) ∧
    decode [0x14#8, 0x02#8] = .ok (.orcc 0x02#8, []) := by
  decide

/-- ABA, DAA, MOVB, MOVW, TAB, TBA (spec/opcode_table.json). -/
theorem test_decode_page2_0 :
    decode [0x18#8, 0x06#8] = .ok (.aba, []) ∧
    decode [0x18#8, 0x07#8] = .ok (.daa, []) ∧
    decode [0x18#8, 0x0A#8, 0xF6#8, 0xE5#8] = .ok (.movb (.mem (.idx (.acc .sp .d))) (.idx (.acc .x .b)), []) ∧
    decode [0x18#8, 0x03#8, 0x9A#8, 0xBC#8, 0x20#8, 0xF0#8] = .ok (.movw (.imm 0x9ABC#16) (.ext 0x20F0#16), []) ∧
    decode [0x18#8, 0x0E#8] = .ok (.tab, []) ∧
    decode [0x18#8, 0x0F#8] = .ok (.tba, []) := by
  decide

/-- CBA, EDIVS, EMACS, EMULS, FDIV, IDIV, IDIVS, SBA, EMAXD, EMAXM (spec/opcode_table.json). -/
theorem test_decode_page2_1_0 :
    decode [0x18#8, 0x17#8] = .ok (.cba, []) ∧
    decode [0x18#8, 0x14#8] = .ok (.edivs, []) ∧
    decode [0x18#8, 0x12#8, 0xFE#8, 0x20#8] = .ok (.emacs 0xFE20#16, []) ∧
    decode [0x18#8, 0x13#8] = .ok (.emuls, []) ∧
    decode [0x18#8, 0x11#8] = .ok (.fdiv, []) ∧
    decode [0x18#8, 0x10#8] = .ok (.idiv, []) ∧
    decode [0x18#8, 0x15#8] = .ok (.idivs, []) ∧
    decode [0x18#8, 0x16#8] = .ok (.sba, []) ∧
    decode [0x18#8, 0x1A#8, 0xF3#8, 0x00#8, 0x06#8] = .ok (.emaxd (.ind16 .sp 6), []) ∧
    decode [0x18#8, 0x1E#8, 0xE5#8] = .ok (.emaxm (.acc .x .b), []) := by
  decide

/-- EMIND, EMINM, MAXA, MAXM, MINA, MINM (spec/opcode_table.json). -/
theorem test_decode_page2_1_1 :
    decode [0x18#8, 0x1B#8, 0xE0#8, 0x64#8] = .ok (.emind (.off9 .x 100), []) ∧
    decode [0x18#8, 0x1F#8, 0xF2#8, 0x12#8, 0x34#8] = .ok (.eminm (.off16 .sp 0x1234#16), []) ∧
    decode [0x18#8, 0x18#8, 0xE7#8] = .ok (.maxa (.indD .x), []) ∧
    decode [0x18#8, 0x1C#8, 0xEB#8, 0x10#8, 0x00#8] = .ok (.maxm (.ind16 .y 0x1000#16), []) ∧
    decode [0x18#8, 0x19#8, 0x6F#8] = .ok (.mina (.auto .y false 15), []) ∧
    decode [0x18#8, 0x1D#8, 0x30#8] = .ok (.minm (.auto .x true 0), []) := by
  decide

/-- LBRA, LBRN, LBHI, LBLS, LBCC, LBCS, LBNE, LBEQ, LBVC, LBVS (spec/opcode_table.json). -/
theorem test_decode_page2_2_0 :
    decode [0x18#8, 0x20#8, 0xFE#8, 0x20#8] = .ok (.lbra 0xFE20#16, []) ∧
    decode [0x18#8, 0x21#8, 0xFE#8, 0x20#8] = .ok (.lbrn 0xFE20#16, []) ∧
    decode [0x18#8, 0x22#8, 0xFE#8, 0x20#8] = .ok (.lbhi 0xFE20#16, []) ∧
    decode [0x18#8, 0x23#8, 0xFE#8, 0x20#8] = .ok (.lbls 0xFE20#16, []) ∧
    decode [0x18#8, 0x24#8, 0xFE#8, 0x20#8] = .ok (.lbcc 0xFE20#16, []) ∧
    decode [0x18#8, 0x25#8, 0xFE#8, 0x20#8] = .ok (.lbcs 0xFE20#16, []) ∧
    decode [0x18#8, 0x26#8, 0xFE#8, 0x20#8] = .ok (.lbne 0xFE20#16, []) ∧
    decode [0x18#8, 0x27#8, 0xFE#8, 0x20#8] = .ok (.lbeq 0xFE20#16, []) ∧
    decode [0x18#8, 0x28#8, 0xFE#8, 0x20#8] = .ok (.lbvc 0xFE20#16, []) ∧
    decode [0x18#8, 0x29#8, 0xFE#8, 0x20#8] = .ok (.lbvs 0xFE20#16, []) := by
  decide

/-- LBPL, LBMI, LBGE, LBLT, LBGT, LBLE, LBHS, LBLO (spec/opcode_table.json). -/
theorem test_decode_page2_2_1 :
    decode [0x18#8, 0x2A#8, 0xFE#8, 0x20#8] = .ok (.lbpl 0xFE20#16, []) ∧
    decode [0x18#8, 0x2B#8, 0xFE#8, 0x20#8] = .ok (.lbmi 0xFE20#16, []) ∧
    decode [0x18#8, 0x2C#8, 0xFE#8, 0x20#8] = .ok (.lbge 0xFE20#16, []) ∧
    decode [0x18#8, 0x2D#8, 0xFE#8, 0x20#8] = .ok (.lblt 0xFE20#16, []) ∧
    decode [0x18#8, 0x2E#8, 0xFE#8, 0x20#8] = .ok (.lbgt 0xFE20#16, []) ∧
    decode [0x18#8, 0x2F#8, 0xFE#8, 0x20#8] = .ok (.lble 0xFE20#16, []) ∧
    decode [0x18#8, 0x24#8, 0xFE#8, 0x20#8] = .ok (.lbcc 0xFE20#16, []) ∧
    decode [0x18#8, 0x25#8, 0xFE#8, 0x20#8] = .ok (.lbcs 0xFE20#16, []) := by
  decide

/-- ETBL, STOP, REV, REVW, WAV, TBL (spec/opcode_table.json). -/
theorem test_decode_page2_3 :
    decode [0x18#8, 0x3F#8, 0xF6#8] = .ok (.etbl (.acc .sp .d), []) ∧
    decode [0x18#8, 0x3E#8] = .ok (.stop, []) ∧
    decode [0x18#8, 0x3A#8] = .ok (.rev, []) ∧
    decode [0x18#8, 0x3B#8] = .ok (.revw, []) ∧
    decode [0x18#8, 0x3C#8] = .ok (.wav, []) ∧
    decode [0x18#8, 0x3D#8, 0xE5#8] = .ok (.tbl (.acc .x .b), []) := by
  decide

/-- BRA, BRN, BLS, BHS, BLO, BNE, BVC, BVS, BPL, BMI (spec/opcode_table.json). -/
theorem test_decode_page1_2_0 :
    decode [0x20#8, 0xFB#8] = .ok (.bra 0xFB#8, []) ∧
    decode [0x21#8, 0xFB#8] = .ok (.brn 0xFB#8, []) ∧
    decode [0x23#8, 0xFB#8] = .ok (.bls 0xFB#8, []) ∧
    decode [0x24#8, 0xFB#8] = .ok (.bhs 0xFB#8, []) ∧
    decode [0x25#8, 0xFB#8] = .ok (.blo 0xFB#8, []) ∧
    decode [0x26#8, 0xFB#8] = .ok (.bne 0xFB#8, []) ∧
    decode [0x28#8, 0xFB#8] = .ok (.bvc 0xFB#8, []) ∧
    decode [0x29#8, 0xFB#8] = .ok (.bvs 0xFB#8, []) ∧
    decode [0x2A#8, 0xFB#8] = .ok (.bpl 0xFB#8, []) ∧
    decode [0x2B#8, 0xFB#8] = .ok (.bmi 0xFB#8, []) := by
  decide

/-- BLT, BLE, BCC, BCS, BEQ, BGE, BGT, BHI (spec/opcode_table.json). -/
theorem test_decode_page1_2_1 :
    decode [0x2D#8, 0xFB#8] = .ok (.blt 0xFB#8, []) ∧
    decode [0x2F#8, 0xFB#8] = .ok (.ble 0xFB#8, []) ∧
    decode [0x24#8, 0xFB#8] = .ok (.bhs 0xFB#8, []) ∧
    decode [0x25#8, 0xFB#8] = .ok (.blo 0xFB#8, []) ∧
    decode [0x27#8, 0xFB#8] = .ok (.beq 0xFB#8, []) ∧
    decode [0x2C#8, 0xFB#8] = .ok (.bge 0xFB#8, []) ∧
    decode [0x2E#8, 0xFB#8] = .ok (.bgt 0xFB#8, []) ∧
    decode [0x22#8, 0xFB#8] = .ok (.bhi 0xFB#8, []) := by
  decide

/-- PSHA, PSHB, PSHC, PSHD, PSHX, PSHY, PULA, PULB, PULC, PULD (spec/opcode_table.json). -/
theorem test_decode_page1_3_0 :
    decode [0x36#8] = .ok (.psha, []) ∧
    decode [0x37#8] = .ok (.pshb, []) ∧
    decode [0x39#8] = .ok (.pshc, []) ∧
    decode [0x3B#8] = .ok (.pshd, []) ∧
    decode [0x34#8] = .ok (.pshx, []) ∧
    decode [0x35#8] = .ok (.pshy, []) ∧
    decode [0x32#8] = .ok (.pula, []) ∧
    decode [0x33#8] = .ok (.pulb, []) ∧
    decode [0x38#8] = .ok (.pulc, []) ∧
    decode [0x3A#8] = .ok (.puld, []) := by
  decide

/-- PULX, PULY, RTS, WAI, wavr, SWI (spec/opcode_table.json). -/
theorem test_decode_page1_3_1 :
    decode [0x30#8] = .ok (.pulx, []) ∧
    decode [0x31#8] = .ok (.puly, []) ∧
    decode [0x3D#8] = .ok (.rts, []) ∧
    decode [0x3E#8] = .ok (.wai, []) ∧
    decode [0x3C#8] = .ok (.wavr, []) ∧
    decode [0x3F#8] = .ok (.swi, []) := by
  decide

/-- BRCLR, BSET, DECA, LSLA, LSRA, LSRD, ROLA, RORA, ASLA, CALL (spec/opcode_table.json). -/
theorem test_decode_page1_4_0 :
    decode [0x4F#8, 0x45#8, 0x81#8, 0xFA#8] = .ok (.brclr (.dir 0x45#8) 0x81#8 0xFA#8, []) ∧
    decode [0x4C#8, 0x45#8, 0x81#8] = .ok (.bset (.dir 0x45#8) 0x81#8, []) ∧
    decode [0x43#8] = .ok (.deca, []) ∧
    decode [0x48#8] = .ok (.lsla, []) ∧
    decode [0x44#8] = .ok (.lsra, []) ∧
    decode [0x49#8] = .ok (.lsrd, []) ∧
    decode [0x45#8] = .ok (.rola, []) ∧
    decode [0x46#8] = .ok (.rora, []) ∧
    decode [0x48#8] = .ok (.lsla, []) ∧
    decode [0x4B#8, 0xEA#8, 0xFF#8, 0xF0#8, 0x07#8] = .ok (.call (.idx (.off16 .y 0xFFF0#16) 7), []) := by
  decide

/-- ASRA, COMA, INCA, NEGA (spec/opcode_table.json). -/
theorem test_decode_page1_4_1 :
    decode [0x47#8] = .ok (.asra, []) ∧
    decode [0x41#8] = .ok (.coma, []) ∧
    decode [0x42#8] = .ok (.inca, []) ∧
    decode [0x40#8] = .ok (.nega, []) := by
  decide

/-- DECB, LSLB, LSLD, LSRB, ROLB, RORB, ASLB, ASLD, ASRB, COMB (spec/opcode_table.json). -/
theorem test_decode_page1_5_0 :
    decode [0x53#8] = .ok (.decb, []) ∧
    decode [0x58#8] = .ok (.lslb, []) ∧
    decode [0x59#8] = .ok (.lsld, []) ∧
    decode [0x54#8] = .ok (.lsrb, []) ∧
    decode [0x55#8] = .ok (.rolb, []) ∧
    decode [0x56#8] = .ok (.rorb, []) ∧
    decode [0x58#8] = .ok (.lslb, []) ∧
    decode [0x59#8] = .ok (.lsld, []) ∧
    decode [0x57#8] = .ok (.asrb, []) ∧
    decode [0x51#8] = .ok (.comb, []) := by
  decide

/-- INCB, NEGB, STAA (spec/opcode_table.json). -/
theorem test_decode_page1_5_1 :
    decode [0x52#8] = .ok (.incb, []) ∧
    decode [0x50#8] = .ok (.negb, []) ∧
    decode [0x5A#8, 0x45#8] = .ok (.staa (.dir 0x45#8), []) := by
  decide

/-- CLR, DEC, LSL, ASL, LSR, ROL, ROR, STS, STX, STY (spec/opcode_table.json). -/
theorem test_decode_page1_6_0 :
    decode [0x69#8, 0xF2#8, 0x12#8, 0x34#8] = .ok (.clr (.idx (.off16 .sp 0x1234#16)), []) ∧
    decode [0x63#8, 0x9F#8] = .ok (.dec (.idx (.off5 .sp (-1))), []) ∧
    decode [0x68#8, 0xE5#8] = .ok (.lsl (.idx (.acc .x .b)), []) ∧
    decode [0x68#8, 0xE0#8, 0x64#8] = .ok (.lsl (.idx (.off9 .x 100)), []) ∧
    decode [0x64#8, 0xF2#8, 0x12#8, 0x34#8] = .ok (.lsr (.idx (.off16 .sp 0x1234#16)), []) ∧
    decode [0x65#8, 0xE7#8] = .ok (.rol (.idx (.indD .x)), []) ∧
    decode [0x66#8, 0xEB#8, 0x10#8, 0x00#8] = .ok (.ror (.idx (.ind16 .y 0x1000#16)), []) ∧
    decode [0x6F#8, 0xF2#8, 0x12#8, 0x34#8] = .ok (.sts (.idx (.off16 .sp 0x1234#16)), []) ∧
    decode [0x6E#8, 0xE7#8] = .ok (.stx (.idx (.indD .x)), []) ∧
    decode [0x6D#8, 0xEB#8, 0x10#8, 0x00#8] = .ok (.sty (.idx (.ind16 .y 0x1000#16)), []) := by
  decide

/-- COM, INC, NEG, STD (spec/opcode_table.json). -/
theorem test_decode_page1_6_1 :
    decode [0x61#8, 0x6F#8] = .ok (.com (.idx (.auto .y false 15)), []) ∧
    decode [0x62#8, 0xF6#8] = .ok (.inc (.idx (.acc .sp .d)), []) ∧
    decode [0x60#8, 0x6F#8] = .ok (.neg (.idx (.auto .y false 15)), []) ∧
    decode [0x6C#8, 0xF6#8] = .ok (.std (.idx (.acc .sp .d)), []) := by
  decide

/-- ASR, STAB (spec/opcode_table.json). -/
theorem test_decode_page1_7 :
    decode [0x77#8, 0x18#8, 0x45#8] = .ok (.asr (.ext 0x1845#16), []) ∧
    decode [0x7B#8, 0x18#8, 0x45#8] = .ok (.stab (.ext 0x1845#16), []) := by
  decide

/-- CLRA, EORA, CPD (spec/opcode_table.json). -/
theorem test_decode_page1_8 :
    decode [0x87#8] = .ok (.clra, []) ∧
    decode [0x88#8, 0x9A#8] = .ok (.eora (.imm 0x9A#8), []) ∧
    decode [0x8C#8, 0x9A#8, 0xBC#8] = .ok (.cpd (.imm 0x9ABC#16), []) := by
  decide

/-- TSTA, ADCA, CPS, ORAA, SUBD (spec/opcode_table.json). -/
theorem test_decode_page1_9 :
    decode [0x97#8] = .ok (.tsta, []) ∧
    decode [0x99#8, 0x45#8] = .ok (.adca (.mem (.dir 0x45#8)), []) ∧
    decode [0x9F#8, 0x45#8] = .ok (.cps (.mem (.dir 0x45#8)), []) ∧
    decode [0x9A#8, 0x45#8] = .ok (.oraa (.mem (.dir 0x45#8)), []) ∧
    decode [0x93#8, 0x45#8] = .ok (.subd (.mem (.dir 0x45#8)), []) := by
  decide

/-- BITA, CMPA, SUBA, ADDA, CPY, NOP, SBCA (spec/opcode_table.json). -/
theorem test_decode_page1_a :
    decode [0xA5#8, 0xF3#8, 0x00#8, 0x06#8] = .ok (.bita (.mem (.idx (.ind16 .sp 6))), []) ∧
    decode [0xA1#8, 0xE7#8] = .ok (.cmpa (.mem (.idx (.indD .x))), []) ∧
    decode [0xA0#8, 0xF0#8, 0x7F#8] = .ok (.suba (.mem (.idx (.off9 .sp 127))), []) ∧
    decode [0xAB#8, 0xE5#8] = .ok (.adda (.mem (.idx (.acc .x .b))), []) ∧
    decode [0xAD#8, 0x30#8] = .ok (.cpy (.mem (.idx (.auto .x true 0))), []) ∧
    decode [0xA7#8] = .ok (.nop, []) ∧
    decode [0xA2#8, 0x30#8] = .ok (.sbca (.mem (.idx (.auto .x true 0))), []) := by
  decide

/-- EXG, TFR, TSX, TSY, TXS, TYS, XGDX, XGDY, ANDA, CPX (spec/opcode_table.json). -/
theorem test_decode_page1_b_0 :
    decode [0xB7#8, 0x84#8] = .ok (.exg (.r8 .a) (.r16 .d), []) ∧
    decode [0xB7#8, 0x01#8] = .ok (.tfr (.r8 .a) (.r8 .b), []) ∧
    decode [0xB7#8, 0x75#8] = .ok (.tfr (.r16 .sp) (.r16 .x), []) ∧
    decode [0xB7#8, 0x76#8] = .ok (.tfr (.r16 .sp) (.r16 .y), []) ∧
    decode [0xB7#8, 0x57#8] = .ok (.tfr (.r16 .x) (.r16 .sp), []) ∧
    decode [0xB7#8, 0x67#8] = .ok (.tfr (.r16 .y) (.r16 .sp), []) ∧
    decode [0xB7#8, 0xC5#8] = .ok (.exg (.r16 .d) (.r16 .x), []) ∧
    decode [0xB7#8, 0xC6#8] = .ok (.exg (.r16 .d) (.r16 .y), []) ∧
    decode [0xB4#8, 0x18#8, 0x45#8] = .ok (.anda (.mem (.ext 0x1845#16)), []) ∧
    decode [0xBE#8, 0x18#8, 0x45#8] = .ok (.cpx (.mem (.ext 0x1845#16)), []) := by
  decide

/-- LDAA, SEX, TAP, TPA (spec/opcode_table.json). -/
theorem test_decode_page1_b_1 :
    decode [0xB6#8, 0x18#8, 0x45#8] = .ok (.ldaa (.mem (.ext 0x1845#16)), []) ∧
    decode [0xB7#8, 0x25#8] = .ok (.tfr (.r8 .ccr) (.r16 .x), []) ∧
    decode [0xB7#8, 0x02#8] = .ok (.tfr (.r8 .a) (.r8 .ccr), []) ∧
    decode [0xB7#8, 0x20#8] = .ok (.tfr (.r8 .ccr) (.r8 .a), []) := by
  decide

/-- BITB, CLRB, ADDB, LDD, SBCB (spec/opcode_table.json). -/
theorem test_decode_page1_c :
    decode [0xC5#8, 0x9A#8] = .ok (.bitb (.imm 0x9A#8), []) ∧
    decode [0xC7#8] = .ok (.clrb, []) ∧
    decode [0xCB#8, 0x9A#8] = .ok (.addb (.imm 0x9A#8), []) ∧
    decode [0xCC#8, 0x9A#8, 0xBC#8] = .ok (.ldd (.imm 0x9ABC#16), []) ∧
    decode [0xC2#8, 0x9A#8] = .ok (.sbcb (.imm 0x9A#8), []) := by
  decide

/-- EORB, TSTB, ADDD, LDS (spec/opcode_table.json). -/
theorem test_decode_page1_d :
    decode [0xD8#8, 0x45#8] = .ok (.eorb (.mem (.dir 0x45#8)), []) ∧
    decode [0xD7#8] = .ok (.tstb, []) ∧
    decode [0xD3#8, 0x45#8] = .ok (.addd (.mem (.dir 0x45#8)), []) ∧
    decode [0xDF#8, 0x45#8] = .ok (.lds (.mem (.dir 0x45#8)), []) := by
  decide

/-- CMPB, TST, SUBB, ANDB, LDAB, LDY (spec/opcode_table.json). -/
theorem test_decode_page1_e :
    decode [0xE1#8, 0xEB#8, 0x10#8, 0x00#8] = .ok (.cmpb (.mem (.idx (.ind16 .y 0x1000#16))), []) ∧
    decode [0xE7#8, 0xE7#8] = .ok (.tst (.idx (.indD .x)), []) ∧
    decode [0xE0#8, 0xF2#8, 0x12#8, 0x34#8] = .ok (.subb (.mem (.idx (.off16 .sp 0x1234#16))), []) ∧
    decode [0xE4#8, 0x47#8] = .ok (.andb (.mem (.idx (.off5 .y 7))), []) ∧
    decode [0xE6#8, 0x47#8] = .ok (.ldab (.mem (.idx (.off5 .y 7))), []) ∧
    decode [0xED#8, 0x9F#8] = .ok (.ldy (.mem (.idx (.off5 .sp (-1)))), []) := by
  decide

/-- ADCB, LDX, ORAB (spec/opcode_table.json). -/
theorem test_decode_page1_f :
    decode [0xF9#8, 0x18#8, 0x45#8] = .ok (.adcb (.mem (.ext 0x1845#16)), []) ∧
    decode [0xFE#8, 0x18#8, 0x45#8] = .ok (.ldx (.mem (.ext 0x1845#16)), []) ∧
    decode [0xFA#8, 0x18#8, 0x45#8] = .ok (.orab (.mem (.ext 0x1845#16)), []) := by
  decide

/-! ### What the host asks of a placed word, and the reset state -/

/-- Bit 0 of the table's numbering is the least significant bit of the first byte: `18` is the low byte of `0x0618`. -/
theorem test_table_word : decodeTableWord 16 0x0618 = some .aba ∧ decodeTableWord 8 0xA7 = some .nop := by
  decide

/-- The word placed at reset is the one the next step runs. -/
theorem test_fetch_word :
    okay (step (State.reset.withFetchWord 16 0x0618)) (fun t => t.pc == 0x0002#16) ∧
    okay (step (State.reset.withFetchWord 16 0x5A86)) (fun t => t.a == 0x5A#8) := by
  decide

/-! ### One step each -/

/-- V40.3. -/
theorem test_bra_wraps :
    okay (step (load { base with pc := 0xFFFE#16 } [0x20#8, 0x00#8])) fun t =>
      t.pc == 0x0000#16 := by
  decide

/-- V40.2. -/
theorem test_bra_back :
    okay (step (load { base with pc := 0x1000#16 } [0x20#8, 0x80#8])) fun t =>
      t.pc == 0x0F82#16 := by
  decide

/-- V40.4. -/
theorem test_bne_below_zero :
    okay (step (load { base with pc := 0 } [0x26#8, 0x80#8])) fun t =>
      t.pc == 0xFF82#16 := by
  decide

/-- V40.6. -/
theorem test_blt_taken :
    okay (step (load { base with ccr := 0x02#8 } [0x2D#8, 0x10#8])) fun t =>
      t.pc == 0x4012#16 := by
  decide

/-- V40.7. -/
theorem test_ble_not_taken :
    okay (step (load { base with ccr := 0x0B#8 } [0x2F#8, 0x10#8])) fun t =>
      t.pc == 0x4002#16 := by
  decide

/-- V40.8. -/
theorem test_bls_taken :
    okay (step (load { base with ccr := 0x04#8 } [0x23#8, 0x10#8])) fun t =>
      t.pc == 0x4012#16 := by
  decide

/-- R431 by hand: 4004 + 8000. -/
theorem test_lbra :
    okay (step (load base [0x18#8, 0x20#8, 0x80#8, 0x00#8])) fun t =>
      t.pc == 0xC004#16 := by
  decide

/-- R431, Z = 1. -/
theorem test_lbgt_not_taken :
    okay (step (load { base with ccr := 0x0E#8 } [0x18#8, 0x2E#8, 0x01#8, 0x00#8])) fun t =>
      t.pc == 0x4004#16 := by
  decide

/-- V40.9. -/
theorem test_brclr_taken :
    okay (step (load { base with pc := 0x1000#16, x := 0x0900#16, mem := [(0x0900, 0x02#8)] } [0x0F#8, 0x30#8,
        0x01#8, 0x02#8])) fun t =>
      t.pc == 0x1006#16 && t.x == 0x0901#16 := by
  decide

/-- V40.10. -/
theorem test_brclr_not_taken :
    okay (step (load { base with pc := 0x1000#16, x := 0x0900#16, mem := [(0x0900, 0x03#8)] } [0x0F#8, 0x30#8,
        0x01#8, 0x02#8])) fun t =>
      t.pc == 0x1004#16 && t.x == 0x0901#16 := by
  decide

/-- V40.13. -/
theorem test_brset_taken :
    okay (step (load { base with pc := 0x1000#16, mem := [(0x1234, 0xC1#8)] } [0x1E#8, 0x12#8, 0x34#8, 0xC0#8,
        0x10#8])) fun t =>
      t.pc == 0x1015#16 := by
  decide

/-- V40.13. -/
theorem test_brset_not_taken :
    okay (step (load { base with pc := 0x1000#16, mem := [(0x1234, 0x81#8)] } [0x1E#8, 0x12#8, 0x34#8, 0xC0#8,
        0x10#8])) fun t =>
      t.pc == 0x1005#16 := by
  decide

/-- V40.16. -/
theorem test_bsr_wraps :
    okay (step (load { base with pc := 0x1000#16, sp := 0x0001#16 } [0x07#8, 0x00#8])) fun t =>
      t.sp == 0xFFFF#16 && t.read8 0xFFFF#16 == 0x10#8 && t.read8 0x0000#16 == 0x02#8 := by
  decide

/-- V40.17. -/
theorem test_ibeq_d :
    okay (step (load { base with pc := 0x1000#16, a := 0xFF#8, b := 0xFF#8, ccr := 0xD9#8 } [0x04#8, 0x84#8,
        0x05#8])) fun t =>
      t.a == 0 && t.b == 0 && t.pc == 0x1008#16 && t.ccr == 0xD9#8 := by
  decide

/-- V40.18. -/
theorem test_ibeq_b :
    okay (step (load { base with pc := 0x1000#16, a := 0x07#8, b := 0xFF#8 } [0x04#8, 0x81#8, 0x05#8])) fun t =>
      t.a == 0x07#8 && t.b == 0 && t.pc == 0x1008#16 := by
  decide

/-- V40.19. -/
theorem test_ibne_sp :
    okay (step (load { base with pc := 0x1000#16, sp := 0xFFFF#16 } [0x04#8, 0xA7#8, 0x10#8])) fun t =>
      t.sp == 0 && t.pc == 0x1003#16 := by
  decide

/-- V40.21. -/
theorem test_ibne_far_back :
    okay (step (load { base with pc := 0x1000#16, y := 0 } [0x04#8, 0xB6#8, 0x00#8])) fun t =>
      t.y == 0x0001#16 && t.pc == 0x0F03#16 := by
  decide

/-- R430, R146 by hand. -/
theorem test_dbeq_borrows :
    okay (step (load { base with a := 0 } [0x04#8, 0x00#8, 0x10#8])) fun t =>
      t.a == 0xFF#8 && t.pc == 0x4003#16 := by
  decide

/-- R432, R146 by hand. -/
theorem test_dbne_taken :
    okay (step (load { base with x := 0x0002#16 } [0x04#8, 0x35#8, 0xFD#8])) fun t =>
      t.x == 0x0001#16 && t.pc == 0x4000#16 := by
  decide

/-- R473 by hand. -/
theorem test_tbeq_keeps :
    okay (step (load { base with y := 0 } [0x04#8, 0x46#8, 0x10#8])) fun t =>
      t.y == 0 && t.pc == 0x4013#16 := by
  decide

/-- R474 by hand. -/
theorem test_tbne_keeps :
    okay (step (load { base with b := 0 } [0x04#8, 0x61#8, 0x10#8])) fun t =>
      t.b == 0 && t.pc == 0x4003#16 := by
  decide

/-- V41.1. -/
theorem test_cmpa_overflow :
    okay (step (load { base with a := 0x80#8 } [0x81#8, 0x01#8])) fun t =>
      nzvc t == 0x02#8 && t.a == 0x80#8 := by
  decide

/-- V41.4. -/
theorem test_cmpa_borrow :
    okay (step (load { base with a := 0x00#8 } [0x81#8, 0x80#8])) fun t =>
      nzvc t == 0x0B#8 := by
  decide

/-- V41.7. -/
theorem test_cba :
    okay (step (load { base with a := 0x10#8, b := 0x20#8 } [0x18#8, 0x17#8])) fun t =>
      nzvc t == 0x09#8 && t.a == 0x10#8 := by
  decide

/-- V41.8. -/
theorem test_bita_keeps_c :
    okay (step (load { base with a := 0xF0#8, ccr := 0x01#8 } [0x85#8, 0x0F#8])) fun t =>
      nzvc t == 0x05#8 && t.a == 0xF0#8 := by
  decide

/-- V41.10. -/
theorem test_eora_indirect :
    okay (step (load { base with a := 0x5A#8, b := 0x02#8, x := 0x1000#16, mem := [(0x0900, 0x5A#8), (0x6A02,
        0x09#8)] } [0xA8#8, 0xE7#8])) fun t =>
      t.a == 0 && nzvc t == 0x04#8 := by
  decide

/-- V41.12. -/
theorem test_bset :
    okay (step (load { base with sp := 0x0BFE#16, mem := [(0x0C00, 0xF0#8)] } [0x0C#8, 0xF0#8, 0x02#8, 0x0F#8]))
        fun t =>
      t.read8 0x0C00#16 == 0xFF#8 && nzvc t == 0x08#8 := by
  decide

/-- R416 by hand. -/
theorem test_bclr :
    okay (step (load { base with mem := [(0x0045, 0xF1#8)] } [0x4D#8, 0x45#8, 0x81#8])) fun t =>
      t.read8 0x0045#16 == 0x70#8 && nzvc t == 0 := by
  decide

/-- V41.14. -/
theorem test_clr :
    okay (step (load { base with x := 0x0100#16, ccr := 0x0B#8, mem := [(0x1100, 0x77#8)] } [0x69#8, 0xE2#8,
        0x10#8, 0x00#8])) fun t =>
      t.read8 0x1100#16 == 0 && nzvc t == 0x04#8 := by
  decide

/-- R176, R99 (V41.15's address). -/
theorem test_tst_indirect :
    okay (step (load { base with x := 0x0900#16, ccr := 0x01#8, mem := [(0x0910, 0x12#8), (0x0911, 0x34#8),
        (0x1234, 0x80#8)] } [0xE7#8, 0xE3#8, 0x00#8, 0x10#8])) fun t =>
      nzvc t == 0x08#8 := by
  decide

/-- V41.18. -/
theorem test_andcc :
    okay (step (load { base with ccr := 0xD0#8 } [0x10#8, 0xAF#8])) fun t =>
      t.ccr == 0x80#8 := by
  decide

/-- R459 by hand: X cannot be set. -/
theorem test_orcc_keeps_x :
    okay (step (load { base with ccr := 0x90#8 } [0x14#8, 0x41#8])) fun t =>
      t.ccr == 0x91#8 := by
  decide

/-- R462 by hand. -/
theorem test_sei :
    okay (step (load { base with ccr := 0x80#8 } [0x14#8, 0x10#8])) fun t =>
      t.ccr == 0x90#8 := by
  decide

/-- R171 by hand. -/
theorem test_clv :
    okay (step (load { base with ccr := 0xD7#8 } [0x10#8, 0xFD#8])) fun t =>
      t.ccr == 0xD5#8 := by
  decide

/-- R409 by hand. -/
theorem test_anda :
    okay (step (load { base with a := 0x0F#8, ccr := 0x03#8 } [0x84#8, 0xF0#8])) fun t =>
      t.a == 0 && nzvc t == 0x05#8 := by
  decide

/-- R457 by hand. -/
theorem test_oraa :
    okay (step (load { base with a := 0x0F#8 } [0x8A#8, 0xF0#8])) fun t =>
      t.a == 0xFF#8 && nzvc t == 0x08#8 := by
  decide

/-- R427 by hand. -/
theorem test_cpx_equal :
    okay (step (load { base with x := 0x1234#16 } [0x8E#8, 0x12#8, 0x34#8])) fun t =>
      nzvc t == 0x04#8 && t.x == 0x1234#16 := by
  decide

/-- R404 by hand: 0F + F0 + 1. -/
theorem test_adca_half_carry :
    okay (step (load { base with a := 0x0F#8, ccr := 0x01#8 } [0x89#8, 0xF0#8])) fun t =>
      t.a == 0 && (t.ccr &&& 0x2F#8) == 0x25#8 := by
  decide

/-- R406 by hand. -/
theorem test_adda_overflow :
    okay (step (load { base with a := 0x7F#8 } [0x8B#8, 0x01#8])) fun t =>
      t.a == 0x80#8 && (t.ccr &&& 0x2F#8) == 0x2A#8 := by
  decide

/-- R401 by hand. -/
theorem test_aba_no_half :
    okay (step (load { base with a := 0xF0#8, b := 0x20#8, ccr := 0x20#8 } [0x18#8, 0x06#8])) fun t =>
      t.a == 0x10#8 && (t.ccr &&& 0x2F#8) == 0x01#8 := by
  decide

/-- R408 by hand. -/
theorem test_addd_keeps_h :
    okay (step (load { base with a := 0xFF#8, b := 0xFF#8, ccr := 0x20#8 } [0xC3#8, 0x00#8, 0x01#8])) fun t =>
      t.a == 0 && t.b == 0 && (t.ccr &&& 0x2F#8) == 0x25#8 := by
  decide

/-- V42.7. -/
theorem test_suba :
    okay (step (load { base with a := 0x50#8 } [0x80#8, 0x60#8])) fun t =>
      t.a == 0xF0#8 && nzvc t == 0x09#8 := by
  decide

/-- R460 by hand: 0 - FF - 1. -/
theorem test_sbca_borrow_in :
    okay (step (load { base with a := 0x00#8, ccr := 0x01#8 } [0x82#8, 0xFF#8])) fun t =>
      t.a == 0 && nzvc t == 0x05#8 := by
  decide

/-- V42.10. -/
theorem test_sba :
    okay (step (load { base with a := 0x05#8, b := 0x07#8 } [0x18#8, 0x16#8])) fun t =>
      t.a == 0xFE#8 && nzvc t == 0x09#8 := by
  decide

/-- R467 by hand. -/
theorem test_subd :
    okay (step (load { base with a := 0x80#8, b := 0x00#8 } [0x83#8, 0x00#8, 0x01#8])) fun t =>
      t.a == 0x7F#8 && t.b == 0xFF#8 && nzvc t == 0x02#8 := by
  decide

/-- V42.1. -/
theorem test_deca_keeps_c :
    okay (step (load { base with a := 0x80#8, ccr := 0x01#8 } [0x43#8])) fun t =>
      t.a == 0x7F#8 && nzvc t == 0x03#8 := by
  decide

/-- V42.3. -/
theorem test_dec_memory :
    okay (step (load { base with sp := 0x5000#16, mem := [(0x5002, 0x01#8)] } [0x63#8, 0x82#8])) fun t =>
      t.read8 0x5002#16 == 0 && nzvc t == 0x04#8 := by
  decide

/-- R434 by hand. -/
theorem test_inca_overflow :
    okay (step (load { base with a := 0x7F#8, ccr := 0x01#8 } [0x42#8])) fun t =>
      t.a == 0x80#8 && nzvc t == 0x0B#8 := by
  decide

/-- R454 by hand. -/
theorem test_nega_80 :
    okay (step (load { base with a := 0x80#8 } [0x40#8])) fun t =>
      t.a == 0x80#8 && nzvc t == 0x0B#8 := by
  decide

/-- R423 by hand. -/
theorem test_coma :
    okay (step (load { base with a := 0x00#8 } [0x41#8])) fun t =>
      t.a == 0xFF#8 && nzvc t == 0x09#8 := by
  decide

/-- V42.4. -/
theorem test_dex_writes_z_alone :
    okay (step (load { base with x := 0, ccr := 0x0C#8 } [0x09#8])) fun t =>
      t.x == 0xFFFF#16 && nzvc t == 0x08#8 := by
  decide

/-- R437 by hand. -/
theorem test_inx_to_zero :
    okay (step (load { base with x := 0xFFFF#16 } [0x08#8])) fun t =>
      t.x == 0 && nzvc t == 0x04#8 := by
  decide

/-- V42.6. -/
theorem test_des_wraps :
    okay (step (load { base with sp := 0, ccr := 0x0F#8 } [0x1B#8, 0x9F#8])) fun t =>
      t.sp == 0xFFFF#16 && t.ccr == 0x0F#8 := by
  decide

/-- V45.7. -/
theorem test_abx_unsigned :
    okay (step (load { base with x := 0x1000#16, b := 0xFF#8 } [0x1A#8, 0xE5#8])) fun t =>
      t.x == 0x10FF#16 := by
  decide

/-- R429 by hand: 99 + 01 = 100. -/
theorem test_daa_99_plus_01 :
    okay (step (load { base with a := 0x9A#8 } [0x18#8, 0x07#8])) fun t =>
      t.a == 0 := by
  decide

/-- R452 by hand. -/
theorem test_mul_round :
    okay (step (load { base with a := 0x10#8, b := 0x08#8, ccr := 0x0E#8 } [0x12#8])) fun t =>
      t.a == 0 && t.b == 0x80#8 && nzvc t == 0x0F#8 := by
  decide

/-- V42.11. -/
theorem test_emul :
    okay (step (load { base with a := 0xFF#8, b := 0xFF#8, y := 0xFFFF#16, ccr := 0x02#8 } [0x13#8])) fun t =>
      t.y == 0xFFFE#16 && t.a == 0 && t.b == 0x01#8 && nzvc t == 0x0A#8 := by
  decide

/-- V42.16. -/
theorem test_emuls :
    okay (step (load { base with a := 0x80#8, b := 0x00#8, y := 0x0001#16 } [0x18#8, 0x13#8])) fun t =>
      t.y == 0xFFFF#16 && t.a == 0x80#8 && t.b == 0 && nzvc t == 0x09#8 := by
  decide

/-- V42.18. -/
theorem test_ediv :
    okay (step (load { base with y := 0, a := 0xC3#8, b := 0x50#8, x := 0x0007#16 } [0x11#8])) fun t =>
      t.y == 0x1BE6#16 && t.a == 0 && t.b == 0x06#8 && nzvc t == 0 := by
  decide

/-- V42.20. -/
theorem test_ediv_largest :
    okay (step (load { base with y := 0xFFFE#16, a := 0xFF#8, b := 0xFF#8, x := 0xFFFF#16 } [0x11#8])) fun t =>
      t.y == 0xFFFF#16 && t.a == 0xFF#8 && t.b == 0xFE#8 && nzvc t == 0x08#8 := by
  decide

/-- V42.24. -/
theorem test_edivs_truncates :
    okay (step (load { base with y := 0xFFFF#16, a := 0xFF#8, b := 0xF9#8, x := 0x0002#16 } [0x18#8, 0x14#8]))
        fun t =>
      t.y == 0xFFFD#16 && t.a == 0xFF#8 && t.b == 0xFF#8 && nzvc t == 0x08#8 := by
  decide

/-- V42.27. -/
theorem test_edivs_fits :
    okay (step (load { base with y := 0xFFFF#16, a := 0x80#8, b := 0x00#8, x := 0x0001#16 } [0x18#8, 0x14#8]))
        fun t =>
      t.y == 0x8000#16 && t.a == 0 && t.b == 0 && nzvc t == 0x08#8 := by
  decide

/-- V42.30. -/
theorem test_idiv :
    okay (step (load { base with a := 0x00#8, b := 0x64#8, x := 0x0007#16, ccr := 0x08#8 } [0x18#8, 0x10#8]))
        fun t =>
      t.x == 0x000E#16 && t.b == 0x02#8 && nzvc t == 0x08#8 := by
  decide

/-- V42.32. -/
theorem test_idiv_by_zero :
    okay (step (load { base with a := 0x12#8, b := 0x34#8, x := 0 } [0x18#8, 0x10#8])) fun t =>
      t.x == 0xFFFF#16 && nzvc t == 0x01#8 := by
  decide

/-- V42.33. -/
theorem test_idivs :
    okay (step (load { base with a := 0xFF#8, b := 0x9C#8, x := 0x0007#16 } [0x18#8, 0x15#8])) fun t =>
      t.x == 0xFFF2#16 && t.a == 0xFF#8 && t.b == 0xFE#8 && nzvc t == 0x08#8 := by
  decide

/-- V42.35. -/
theorem test_idivs_overflow :
    okay (step (load { base with a := 0x80#8, b := 0x00#8, x := 0xFFFF#16 } [0x18#8, 0x15#8])) fun t =>
      t.x == 0x8000#16 && t.a == 0 && t.b == 0 := by
  decide

/-- V42.37. -/
theorem test_fdiv :
    okay (step (load { base with a := 0x00#8, b := 0x01#8, x := 0x0003#16 } [0x18#8, 0x11#8])) fun t =>
      t.x == 0x5555#16 && t.b == 0x01#8 && nzvc t == 0 := by
  decide

/-- V42.39. -/
theorem test_fdiv_overflow :
    okay (step (load { base with a := 0x00#8, b := 0x02#8, x := 0x0002#16 } [0x18#8, 0x11#8])) fun t =>
      t.x == 0xFFFF#16 && (t.ccr &&& 0x07#8) == 0x02#8 := by
  decide

/-- V42.41. -/
theorem test_emacs :
    okay (step (load { base with x := 0x0900#16, y := 0x0902#16, mem := [(0x0823, 0x0A#8), (0x0901, 0x02#8),
        (0x0902, 0xFF#8), (0x0903, 0xFD#8)] } [0x18#8, 0x12#8, 0x08#8, 0x20#8])) fun t =>
      t.read32 0x0820#16 == 0x00000004#32 && nzvc t == 0x01#8 := by
  decide

/-- V42.42. -/
theorem test_emacs_overflow :
    okay (step (load { base with x := 0x0900#16, y := 0x0900#16, mem := [(0x0820, 0x7F#8), (0x0821, 0xFF#8),
        (0x0822, 0xFF#8), (0x0823, 0xFF#8), (0x0900, 0x7F#8), (0x0901, 0xFF#8)] } [0x18#8, 0x12#8, 0x08#8,
        0x20#8])) fun t =>
      t.read32 0x0820#16 == 0xBFFF0000#32 && nzvc t == 0x0B#8 := by
  decide

/-- V43.2. -/
theorem test_emaxd :
    okay (step (load { base with a := 0x00#8, b := 0x01#8, x := 0x0900#16, mem := [(0x0900, 0x80#8)] } [0x18#8,
        0x1A#8, 0x00#8])) fun t =>
      t.a == 0x80#8 && t.b == 0 && nzvc t == 0x0B#8 := by
  decide

/-- V43.6. -/
theorem test_eminm_rewrites :
    okay (step (load { base with a := 0x00#8, b := 0x05#8, x := 0x0900#16, mem := [(0x0901, 0x05#8)] } [0x18#8,
        0x1F#8, 0x00#8])) fun t =>
      t.read16 0x0900#16 == 0x0005#16 && nzvc t == 0x04#8 := by
  decide

/-- V43.7. -/
theorem test_maxa :
    okay (step (load { base with a := 0x10#8, x := 0x0900#16, mem := [(0x0910, 0xF0#8)] } [0x18#8, 0x18#8,
        0xE4#8])) fun t =>
      t.a == 0xF0#8 && nzvc t == 0x01#8 := by
  decide

/-- V43.8. -/
theorem test_maxm :
    okay (step (load { base with a := 0x80#8, x := 0x0900#16, mem := [(0x0900, 0x7F#8)] } [0x18#8, 0x1C#8,
        0x30#8])) fun t =>
      t.read8 0x0900#16 == 0x80#8 && t.x == 0x0901#16 && nzvc t == 0x02#8 := by
  decide

/-- R448 by hand. -/
theorem test_mina :
    okay (step (load { base with a := 0x10#8, x := 0x0900#16, mem := [(0x0900, 0x0F#8)] } [0x18#8, 0x19#8,
        0x00#8])) fun t =>
      t.a == 0x0F#8 && nzvc t == 0 := by
  decide

/-- V43.9. -/
theorem test_etbl_fraction_lost :
    okay (step (load { base with x := 0x0900#16, b := 0x80#8, mem := [(0x0900, 0x10#8), (0x0902, 0x20#8)] }
        [0x18#8, 0x3F#8, 0x00#8])) fun t =>
      t.a == 0x18#8 && t.b == 0 := by
  decide

/-- V43.12. -/
theorem test_etbl_floor :
    okay (step (load { base with x := 0x0900#16, b := 0x01#8, mem := [(0x0900, 0xFF#8), (0x0901, 0xFF#8)] }
        [0x18#8, 0x3F#8, 0x00#8])) fun t =>
      t.a == 0xFE#8 && t.b == 0xFF#8 := by
  decide

/-- R475, the 8-bit sibling of V43.10. -/
theorem test_tbl :
    okay (step (load { base with x := 0x0900#16, b := 0x40#8, mem := [(0x0900, 0x20#8), (0x0901, 0x10#8)] }
        [0x18#8, 0x3D#8, 0x00#8])) fun t =>
      t.a == 0x1C#8 && t.b == 0x40#8 := by
  decide

/-- V44.1. -/
theorem test_lsl_memory :
    okay (step (load { base with mem := [(0x0800, 0x80#8)] } [0x78#8, 0x08#8, 0x00#8])) fun t =>
      t.read8 0x0800#16 == 0 && nzvc t == 0x07#8 := by
  decide

/-- V44.5. -/
theorem test_lsld :
    okay (step (load { base with a := 0x40#8, b := 0x80#8 } [0x59#8])) fun t =>
      t.a == 0x81#8 && t.b == 0 && nzvc t == 0x0A#8 := by
  decide

/-- V44.8. -/
theorem test_lsra :
    okay (step (load { base with a := 0x03#8 } [0x44#8])) fun t =>
      t.a == 0x01#8 && nzvc t == 0x03#8 := by
  decide

/-- V44.9. -/
theorem test_lsrd :
    okay (step (load { base with a := 0x81#8, b := 0x01#8 } [0x49#8])) fun t =>
      t.a == 0x40#8 && t.b == 0x80#8 && nzvc t == 0x03#8 := by
  decide

/-- V44.11. -/
theorem test_rol_memory :
    okay (step (load { base with ccr := 0x01#8, mem := [(0x0800, 0x40#8)] } [0x75#8, 0x08#8, 0x00#8])) fun t =>
      t.read8 0x0800#16 == 0x81#8 && nzvc t == 0x0A#8 := by
  decide

/-- V44.15. -/
theorem test_rora :
    okay (step (load { base with a := 0x01#8, ccr := 0x01#8 } [0x46#8])) fun t =>
      t.a == 0x80#8 && nzvc t == 0x09#8 := by
  decide

/-- R414 by hand. -/
theorem test_asrb_sign :
    okay (step (load { base with b := 0x81#8 } [0x57#8])) fun t =>
      t.b == 0xC0#8 && nzvc t == 0x09#8 := by
  decide

/-- V45.1. -/
theorem test_exg_d_x :
    okay (step (load { base with a := 0x12#8, b := 0x34#8, x := 0xABCD#16 } [0xB7#8, 0xC5#8])) fun t =>
      t.a == 0xAB#8 && t.b == 0xCD#8 && t.x == 0x1234#16 := by
  decide

/-- V45.2. -/
theorem test_exg_a_b :
    okay (step (load { base with a := 0x12#8, b := 0x34#8 } [0xB7#8, 0x81#8])) fun t =>
      t.a == 0x34#8 && t.b == 0x12#8 := by
  decide

/-- R261 by hand. -/
theorem test_tfr_narrows :
    okay (step (load { base with x := 0x12F4#16 } [0xB7#8, 0x50#8])) fun t =>
      t.a == 0xF4#8 && t.x == 0x12F4#16 := by
  decide

/-- R471 by hand. -/
theorem test_tap_keeps_x_clear :
    okay (step (load { base with a := 0xFF#8, ccr := 0x90#8 } [0xB7#8, 0x02#8])) fun t =>
      t.ccr == 0xBF#8 := by
  decide

/-- R463 by hand. -/
theorem test_sex :
    okay (step (load { base with a := 0x80#8 } [0xB7#8, 0x05#8])) fun t =>
      t.x == 0xFF80#16 := by
  decide

/-- V45.6. -/
theorem test_leax_pc :
    okay (step (load { base with pc := 0x2000#16 } [0x1A#8, 0xFA#8, 0x1F#8, 0xFC#8])) fun t =>
      t.x == 0x4000#16 := by
  decide

/-- V45.10. -/
theorem test_leay_post :
    okay (step (load { base with x := 0x1000#16 } [0x19#8, 0x30#8])) fun t =>
      t.y == 0x1000#16 && t.x == 0x1001#16 := by
  decide

/-- R441 by hand. -/
theorem test_ldaa :
    okay (step (load { base with a := 0x55#8, ccr := 0x03#8 } [0x86#8, 0x00#8])) fun t =>
      t.a == 0 && nzvc t == 0x05#8 := by
  decide

/-- R443, R94 by hand. -/
theorem test_ldd_post :
    okay (step (load { base with x := 0x0900#16, mem := [(0x0900, 0x80#8), (0x0901, 0x02#8)] } [0xEC#8,
        0x31#8])) fun t =>
      t.a == 0x80#8 && t.b == 0x02#8 && t.x == 0x0902#16 && nzvc t == 0x08#8 := by
  decide

/-- R466, R58 by hand. -/
theorem test_std_wraps :
    okay (step (load { base with a := 0x12#8, b := 0x34#8 } [0x7C#8, 0xFF#8, 0xFF#8])) fun t =>
      t.read8 0xFFFF#16 == 0x12#8 && t.read8 0x0000#16 == 0x34#8 := by
  decide

/-- V45.19. -/
theorem test_stx_direct :
    okay (step (load { base with x := 0x8001#16 } [0x5E#8, 0x40#8])) fun t =>
      t.read16 0x0040#16 == 0x8001#16 && nzvc t == 0x08#8 := by
  decide

/-- V45.20. -/
theorem test_sty_post :
    okay (step (load { base with y := 0x1BE6#16, x := 0x0800#16 } [0x6D#8, 0x31#8])) fun t =>
      t.read16 0x0800#16 == 0x1BE6#16 && t.x == 0x0802#16 := by
  decide

/-- V45.23. -/
theorem test_sts_indirect :
    okay (step (load { base with sp := 0x0BFE#16, x := 0x0900#16, b := 0x10#8, mem := [(0x0910, 0x08#8),
        (0x0911, 0x10#8)] } [0x6F#8, 0xE7#8])) fun t =>
      t.read16 0x0810#16 == 0x0BFE#16 && nzvc t == 0 := by
  decide

/-- R450 by hand. -/
theorem test_movb_imm_ext :
    okay (step (load base [0x18#8, 0x0B#8, 0x9A#8, 0x20#8, 0xF0#8])) fun t =>
      t.read8 0x20F0#16 == 0x9A#8 := by
  decide

/-- R451, R94 by hand. -/
theorem test_movw_idx_idx :
    okay (step (load { base with x := 0x0900#16, y := 0x0A00#16, mem := [(0x0900, 0x12#8), (0x0901, 0x34#8)] }
        [0x18#8, 0x02#8, 0x31#8, 0x71#8])) fun t =>
      t.read16 0x0A00#16 == 0x1234#16 && t.x == 0x0902#16 && t.y == 0x0A02#16 := by
  decide

/-- V45.12. -/
theorem test_pshd :
    okay (step (load { base with a := 0x12#8, b := 0x34#8 } [0x3B#8])) fun t =>
      t.sp == 0x0BFE#16 && t.read8 0x0BFE#16 == 0x12#8 && t.read8 0x0BFF#16 == 0x34#8 := by
  decide

/-- V45.13. -/
theorem test_pshy_wraps :
    okay (step (load { base with sp := 0x0001#16, y := 0x0102#16 } [0x35#8])) fun t =>
      t.sp == 0xFFFF#16 && t.read8 0xFFFF#16 == 0x01#8 && t.read8 0x0000#16 == 0x02#8 := by
  decide

/-- V45.15. -/
theorem test_pulc_x_stays_clear :
    okay (step (load { base with ccr := 0x90#8, mem := [(0x0C00, 0x45#8)] } [0x38#8])) fun t =>
      t.ccr == 0x05#8 && t.sp == 0x0C01#16 := by
  decide

/-- V45.14. -/
theorem test_puld :
    okay (step (load { base with sp := 0x0BFE#16, mem := [(0x0BFE, 0x12#8), (0x0BFF, 0x34#8)] } [0x3A#8])) fun t
        =>
      t.a == 0x12#8 && t.b == 0x34#8 && t.sp == 0x0C00#16 := by
  decide

/-- V46.1. -/
theorem test_call_extended :
    okay (step (load { base with ppage := 0x02#8 } [0x4A#8, 0x80#8, 0x00#8, 0x05#8])) fun t =>
      t.read8 0x0BFD#16 == 0x02#8 && t.read16 0x0BFE#16 == 0x4004#16 && t.sp == 0x0BFD#16 && t.ppage == 0x05#8 &&
      t.pc == 0x8000#16 := by
  decide

/-- V46.5. -/
theorem test_call_indirect :
    okay (step (load { base with ppage := 0x01#8, y := 0x0100#16, mem := [(0x1100, 0x90#8), (0x1102, 0x07#8)] }
        [0x4B#8, 0xEB#8, 0x10#8, 0x00#8])) fun t =>
      t.pc == 0x9000#16 && t.ppage == 0x07#8 && t.sp == 0x0BFD#16 && t.read8 0x0BFD#16 == 0x01#8 := by
  decide

/-- R440, R300 by hand. -/
theorem test_jsr_before_push :
    okay (step (load base [0x15#8, 0x82#8])) fun t =>
      t.pc == 0x0C02#16 && t.sp == 0x0BFE#16 && t.read16 0x0BFE#16 == 0x4002#16 := by
  decide

/-- V46.7. -/
theorem test_rtc :
    okay (step (load { base with sp := 0x0BFD#16, mem := [(0x0BFD, 0x02#8), (0x0BFE, 0x40#8), (0x0BFF, 0x04#8)]
        } [0x0A#8])) fun t =>
      t.ppage == 0x02#8 && t.pc == 0x4004#16 && t.sp == 0x0C00#16 := by
  decide

/-- V46.8. -/
theorem test_rts :
    okay (step (load { base with sp := 0x0BFE#16, mem := [(0x0BFE, 0x40#8), (0x0BFF, 0x02#8)] } [0x3D#8])) fun t
        =>
      t.pc == 0x4002#16 && t.sp == 0x0C00#16 := by
  decide

/-- V46.9. -/
theorem test_trap_frame :
    okay (step (load { base with a := 0x11#8, b := 0x22#8, x := 0x3344#16, y := 0x5566#16, ccr := 0xC0#8, mem :=
        [(0xFFF8, 0x50#8)] } [0x18#8, 0x30#8])) fun t =>
      t.sp == 0x0BF7#16 && t.read32 0x0BF7#16 == 0xC0221133#32 && t.read32 0x0BFB#16 == 0x44556640#32 && t.read8
      0x0BFF#16 == 0x02#8 && t.ccr == 0xD0#8 && t.pc == 0x5000#16 := by
  decide

/-- V46.11, V46.12. -/
theorem test_rti :
    okay (step (load { base with sp := 0x0BF7#16, ccr := 0x90#8, mem := [(0x0BF7, 0x40#8), (0x0BF8, 0x22#8),
        (0x0BF9, 0x11#8), (0x0BFA, 0x33#8), (0x0BFB, 0x44#8), (0x0BFC, 0x55#8), (0x0BFD, 0x66#8), (0x0BFE,
        0x40#8), (0x0BFF, 0x02#8)] } [0x0B#8])) fun t =>
      t.ccr == 0 && t.b == 0x22#8 && t.a == 0x11#8 && t.x == 0x3344#16 && t.y == 0x5566#16 && t.pc == 0x4002#16 &&
      t.sp == 0x0C00#16 := by
  decide

/-- R468, R503 by hand. -/
theorem test_swi :
    okay (step (load { base with ccr := 0x40#8, mem := [(0xFFF6, 0x12#8), (0xFFF7, 0x34#8)] } [0x3F#8])) fun t
        =>
      t.pc == 0x1234#16 && t.sp == 0x0BF7#16 && t.read8 0x0BF7#16 == 0x40#8 && t.ccr == 0x50#8 := by
  decide

/-- R419: BGND stacks the frame and writes no flag, I included. -/
theorem test_bgnd_keeps_flags :
    okay (step (load { base with ccr := 0x40#8 } [0x00#8])) fun t =>
      t.ccr == 0x40#8 && t.sp == 0x0BF7#16 && t.read8 0x0BF7#16 == 0x40#8 && t.read16 0x0BFE#16 == 0x4001#16 := by
  decide

/-- V46.14. -/
theorem test_stop_stacks :
    okay (step (load { base with ccr := 0x50#8 } [0x18#8, 0x3E#8])) fun t =>
      t.sp == 0x0BF7#16 && t.read8 0x0BF7#16 == 0x50#8 && t.read16 0x0BFE#16 == 0x4002#16 && t.run == .stopped := by
  decide

/-- V46.15. -/
theorem test_stop_disabled :
    okay (step (load { base with ccr := 0xD0#8 } [0x18#8, 0x3E#8])) fun t =>
      t.pc == 0x4002#16 && t.sp == 0x0C00#16 && t.run == .running := by
  decide

/-- V46.16. -/
theorem test_wai :
    okay (step (load { base with ccr := 0xC0#8 } [0x3E#8])) fun t =>
      t.sp == 0x0BF7#16 && t.read8 0x0BF7#16 == 0xC0#8 && t.read16 0x0BFE#16 == 0x4001#16 && t.run == .waiting &&
      t.ccr == 0xC0#8 := by
  decide

/-- V47.2. -/
theorem test_mem_grade :
    okay (step (load { base with a := 0x28#8, x := 0x1000#16, y := 0x0900#16, mem := [(0x1000, 0x20#8), (0x1001,
        0x80#8), (0x1002, 0x08#8), (0x1003, 0x04#8)] } [0x01#8])) fun t =>
      t.read8 0x0900#16 == 0x40#8 && t.x == 0x1004#16 && t.y == 0x0901#16 && t.a == 0x28#8 := by
  decide

/-- V47.5. -/
theorem test_mem_outside :
    okay (step (load { base with a := 0x81#8, x := 0x1000#16, y := 0x0900#16, mem := [(0x0900, 0x77#8), (0x1000,
        0x20#8), (0x1001, 0x80#8), (0x1002, 0x08#8), (0x1003, 0x04#8)] } [0x01#8])) fun t =>
      t.read8 0x0900#16 == 0 := by
  decide

/-- V47.8 (1). -/
theorem test_rev_input :
    okay (step (load { base with a := 0xFF#8, x := 0x1000#16, y := 0x0900#16, mem := [(0x0900, 0x30#8)] }
        [0x18#8, 0x3A#8])) fun t =>
      t.a == 0x30#8 && t.x == 0x1001#16 && t.pc == 0x4000#16 := by
  decide

/-- V47.8 (8). -/
theorem test_rev_output :
    okay (step (load { base with a := 0xC0#8, x := 0x1007#16, y := 0x0900#16, ccr := 0x02#8, mem := [(0x0902,
        0x30#8), (0x1007, 0x02#8)] } [0x18#8, 0x3A#8])) fun t =>
      t.read8 0x0902#16 == 0xC0#8 && t.a == 0xC0#8 := by
  decide

/-- V47.10. -/
theorem test_revw_weight :
    okay (step (load { base with a := 0x80#8, x := 0x1004#16, y := 0x0800#16, ccr := 0x01#8, mem := [(0x0800,
        0x7F#8), (0x1004, 0xFF#8), (0x1005, 0xFE#8)] } [0x18#8, 0x3B#8])) fun t =>
      t.a == 0x40#8 && t.y == 0x0801#16 := by
  decide

/-- V47.9. -/
theorem test_revw_ends :
    okay (step (load { base with a := 0x30#8, x := 0x1008#16, ccr := 0x02#8, mem := [(0x1008, 0xFF#8), (0x1009,
        0xFF#8)] } [0x18#8, 0x3B#8])) fun t =>
      t.a == 0x30#8 && t.x == 0x100A#16 && t.pc == 0x4002#16 := by
  decide

/-- V47.11. -/
theorem test_wav :
    okay (step (load { base with b := 0x02#8, x := 0x1000#16, y := 0x1010#16, ccr := 0x50#8, mem := [(0x1000,
        0x10#8), (0x1001, 0x20#8), (0x1010, 0x03#8), (0x1011, 0x01#8)] } [0x18#8, 0x3C#8])) fun t =>
      t.y == 0 && t.a == 0 && t.b == 0x50#8 && t.x == 0x0004#16 := by
  decide

/-- V47.12. -/
theorem test_wav_largest :
    okay (step (load { base with b := 0x03#8, x := 0x1000#16, y := 0x1000#16, ccr := 0x50#8, mem := [(0x1000,
        0xFF#8), (0x1001, 0xFF#8), (0x1002, 0xFF#8)] } [0x18#8, 0x3C#8])) fun t =>
      t.y == 0x0002#16 && t.a == 0xFA#8 && t.b == 0x03#8 && t.x == 0x02FD#16 := by
  decide

/-- R456. -/
theorem test_nop :
    okay (step (load { base with ccr := 0x0F#8 } [0xA7#8])) fun t =>
      t.pc == 0x4001#16 && t.ccr == 0x0F#8 := by
  decide

/-- R444 by hand. -/
theorem test_lds :
    okay (step (load base [0xCF#8, 0x80#8, 0x00#8])) fun t =>
      t.sp == 0x8000#16 && nzvc t == 0x08#8 := by
  decide

/-! ### Well-formedness: each check refuses an ill-formed term -/

/-- No DIR row of CLR (R168), no indirect row of BRCLR and BSET (R140, R163), no trailing-byte group in MOVB (R450). -/
theorem test_wf_memory_operands :
    (Instr.clr (.dir 0x10#8)).wf = false ∧ (Instr.clr (.ext 0x0010#16)).wf = true ∧
    (Instr.jmp (.dir 0x10#8)).wf = false ∧ (Instr.jmp (.idx (.indD .x))).wf = true ∧
    (Instr.brclr (.idx (.ind16 .x 0)) 0 0).wf = false ∧ (Instr.brclr (.idx (.off16 .x 0)) 0 0).wf = true ∧
    (Instr.bset (.idx (.indD .y)) 0).wf = false ∧ (Instr.bset (.dir 0) 0).wf = true ∧
    (Instr.movb (.mem (.dir 0)) (.ext 0)).wf = false ∧ (Instr.movb (.imm 0) (.dir 0)).wf = false ∧
    (Instr.movb (.imm 0) (.idx (.off9 .x 0))).wf = false ∧ (Instr.movb (.imm 0) (.idx (.off5 .x 0))).wf = true ∧
    (Instr.movw (.mem (.idx (.off16 .x 0))) (.ext 0)).wf = false ∧ (Instr.movw (.imm 0) (.idx (.indD .x))).wf = false ∧
    (Instr.movw (.mem (.ext 0)) (.idx (.acc .x .d))).wf = true := by
  decide

/-- LEAX takes no indirect form (R286), ETBL and TBL the short forms alone (R224), CALL's direct and indirect operands
(R300, R301), trap numbers (R106). -/
theorem test_wf_other_checks :
    (Instr.leax (.indD .x)).wf = false ∧ (Instr.leas (.ind16 .x 0)).wf = false ∧ (Instr.leay (.off16 .x 0)).wf = true ∧
    (Instr.etbl (.off9 .x 0)).wf = false ∧ (Instr.tbl (.indD .x)).wf = false ∧ (Instr.tbl (.acc .x .a)).wf = true ∧
    (Instr.call (.idx (.indD .x) 0)).wf = false ∧ (Instr.call (.ind (.off5 .x 0))).wf = false ∧
    (Instr.call (.ind (.ind16 .x 0))).wf = true ∧ (Instr.call (.idx (.off9 .x 0) 0)).wf = true ∧
    (Instr.trap 0x2F#8).wf = false ∧ (Instr.trap 0x3A#8).wf = false ∧ (Instr.trap 0x3F#8).wf = false ∧
    (Instr.trap 0x30#8).wf = true ∧ (Instr.trap 0x39#8).wf = true ∧ (Instr.trap 0x40#8).wf = true ∧
    (Instr.trap 0xFF#8).wf = true ∧ (Instr.sex .a .x).wf = true := by
  decide

/-! ### Memory accesses, runs -/

/-- R451: MOVW reads two bytes, then writes two. -/
theorem test_accesses_movw :
    accesses (.movw (.mem (.ext 0x1000#16)) (.ext 0x2000#16)) base =
      [.read 0x1000#16, .read 0x1001#16, .write 0x2000#16, .write 0x2001#16] := by
  decide

/-- R99: an indirect operand reads its pointer first; R60: INC reads the byte, then writes it. -/
theorem test_accesses_inc :
    accesses (.inc (.idx (.ind16 .x 0x0010#16))) { base with x := 0x2000#16, mem := [(0x2010, 0x30#8)] } =
      [.read 0x2010#16, .read 0x2011#16, .read 0x3000#16, .write 0x3000#16] := by
  decide

/-- R503: SWI writes the nine bytes below SP and reads its vector. -/
theorem test_accesses_swi :
    accesses .swi base = [.write 0x0BF7#16, .write 0x0BF8#16, .write 0x0BF9#16, .write 0x0BFA#16, .write 0x0BFB#16,
      .write 0x0BFC#16, .write 0x0BFD#16, .write 0x0BFE#16, .write 0x0BFF#16, .read 0xFFF6#16, .read 0xFFF7#16] := by
  decide

/-- R570: a run of NOPs ends where PC reaches the given address, with steps to spare. -/
theorem test_run_halts :
    okay (runUntil (fun t => t.pc == 0x4001#16) 3 (load base [0xA7#8, 0xA7#8])) (fun t => t.pc == 0x4001#16) = true := by
  decide

/-! ### Witnesses: a state and operands that meet the hypotheses of each statement that has some -/

/-- DecodeEncode, EncodeDecode: a form with extension bytes, and an alias. -/
theorem test_met_decodeEncode :
    (Instr.call (.ind (.ind16 .y 0x1000#16))).wf = true ∧ Instr.clc.wf = true ∧
    decode [0x4B#8, 0xEB#8, 0x10#8, 0x00#8] = .ok (.call (.ind (.ind16 .y 0x1000#16)), []) := by
  decide

/-- TrapEncodings: the trap numbers at the ends of both ranges, and their neighbours outside. -/
theorem test_met_trapEncodings :
    decode [0x18#8, 0x30#8] = .ok (.trap 0x30#8, []) ∧ decode [0x18#8, 0x39#8] = .ok (.trap 0x39#8, []) ∧
    decode [0x18#8, 0x40#8] = .ok (.trap 0x40#8, []) ∧ decode [0x18#8, 0xFF#8] = .ok (.trap 0xFF#8, []) ∧
    decode [0x18#8, 0x3A#8] = .ok (.rev, []) ∧ decode [0x18#8, 0x3E#8] = .ok (.stop, []) ∧
    decode [0x18#8, 0x2F#8, 0x00#8, 0x00#8] = .ok (.lble 0, []) := by
  decide

/-- R112: reserved `eb` and `lb` values and their neighbours; `B7 35` is a vector of 95_test_vectors.md. -/
theorem test_reserved_postbytes :
    decode [0xB7#8, 0x35#8] = .error .reservedTransfer ∧ decode [0xB7#8, 0x53#8] = .error .reservedTransfer ∧
    decode [0xB7#8, 0xB0#8] = .error .reservedTransfer ∧ decode [0xB7#8, 0x4D#8] = .error .reservedTransfer ∧
    decode [0xB7#8, 0x24#8] = .ok (.tfr (.r8 .ccr) (.r16 .d), []) ∧ decode [0x04#8, 0xC0#8, 0] = .error .reservedLoop ∧
    decode [0x04#8, 0x82#8, 0] = .error .reservedLoop ∧ decode [0x04#8, 0x93#8, 0] = .error .reservedLoop ∧
    decode [0x04#8, 0x88#8, 0] = .error .reservedLoop ∧ decode [0x04#8, 0xB7#8, 0] = .ok (.ibne .sp (-256), []) := by
  decide

/-- A NOP at PC, nothing requested. -/
def atNop : State := load base [0xA7#8]

/-- StepRunsDecoded. -/
theorem test_met_stepRunsDecoded :
    atNop.run = .running ∧ candidates atNop = [] ∧ atNop.stale = [] ∧
    decode (fetchBytes atNop) = .ok (.nop, [0, 0, 0, 0, 0]) ∧
    exec .nop { fetchSpend atNop with pc := atNop.pc + BitVec.ofNat 16 1 } =
      .next { atNop with pc := 0x4001#16 } :=
  ⟨rfl, by decide, by decide, by decide, rfl⟩

/-- StepRunsEncoded. -/
theorem test_met_stepRunsEncoded :
    Instr.nop.wf = true ∧ atNop.run = .running ∧ candidates atNop = [] ∧ atNop.stale = [] ∧
    (∀ k : Nat, ∀ h : k < (encode .nop).length, atNop.read8 (atNop.pc + BitVec.ofNat 16 k) = (encode .nop)[k]) ∧
    exec Instr.nop.core { atNop with pc := atNop.pc + BitVec.ofNat 16 (encode .nop).length } =
      .next { atNop with pc := 0x4001#16 } := by
  refine ⟨by decide, rfl, by decide, by decide, fun k h => ?_, rfl⟩
  obtain rfl : k = 0 := Nat.lt_one_iff.mp h
  rfl

/-- NoInstructionStops: both ends of its second part, a next state and a reserved postbyte. -/
theorem test_met_noInstructionStops :
    okay (step atNop) (fun _ => true) = true ∧
    step (load base [0x04#8, 0xC0#8]) = .refused (.undecodable .reservedLoop) :=
  ⟨by decide, rfl⟩

/-- MemoryStaysCanonical. -/
theorem test_met_memoryStaysCanonical :
    atNop.mem.wf = true ∧ step atNop = .next { atNop with pc := 0x4001#16 } :=
  ⟨by decide, rfl⟩

/-- XMaskOneWay, with no request and with IRQ standing while I = 1. -/
theorem test_met_xMaskOneWay :
    let s : State := { atNop with ccr := 0x10#8, requests := [.irq] }
    s.flagX = false ∧ (∀ r ∈ s.requests, r ≠ .xirq ∧ isReset r = false) ∧
    step s = .next { s with pc := 0x4001#16 } :=
  ⟨by decide, by decide, rfl⟩

/-- ControlWriters: an instruction that is none of the four, and each of them. -/
theorem test_met_controlWriters :
    candidates base = [] ∧ exec .nop base = .next base ∧ (∀ d, Instr.nop ≠ .call d) ∧ Instr.nop ≠ .rtc ∧
    Instr.nop ≠ .wai ∧ Instr.nop ≠ .stop := by
  exact ⟨by decide, rfl, fun d => Instr.noConfusion, by decide, by decide, by decide⟩

/-- RunningStep: IRQ with I = 0, XIRQ with X = 0 and I = 1, a reset with both masks set. -/
theorem test_met_runningStep :
    (let s : State := { base with ccr := 0, requests := [.irq] }
     s.run = .running ∧ candidates s ≠ []) ∧
    (let s : State := { base with ccr := 0x10#8, requests := [.irq, .xirq] }
     s.run = .running ∧ candidates s = [.xirq]) ∧
    (let s : State := { base with requests := [.reset, .irq] }
     s.run = .running ∧ candidates s = [.reset]) := by
  decide

/-- WaitStopStep, its first two clauses: WAITING with nothing let through, with IRQ, with a reset. -/
theorem test_met_waiting :
    (let s : State := { base with run := .waiting, requests := [.irq] }
     s.run = .waiting ∧ candidates s = []) ∧
    (let s : State := { base with run := .waiting, ccr := 0, requests := [.irq, .peripheral 0xFFF0#16] }
     s.run = .waiting ∧ candidates s ≠ [] ∧ highest .irq [.peripheral 0xFFF0#16] = .irq ∧ isReset .irq = false) ∧
    (let s : State := { base with run := .waiting, requests := [.cop] }
     s.run = .waiting ∧ candidates s = [.cop] ∧ isReset .cop = true) := by
  decide

/-- WaitStopStep, STOPPED, a source that ends it: IRQ beside a peripheral, XIRQ, the reset pin, the COP, the clock monitor. -/
theorem test_met_stopped_wakes :
    (let s : State := { base with run := .stopped, ccr := 0, requests := [.peripheral 0xFFF0#16, .irq] }
     s.run = .stopped ∧ (candidates s).filter wakesStop = [.irq] ∧ isReset .irq = false) ∧
    (let s : State := { base with run := .stopped, ccr := 0x10#8, requests := [.irq, .xirq] }
     s.run = .stopped ∧ (candidates s).filter wakesStop = [.xirq] ∧ isReset .xirq = false) ∧
    (let s : State := { base with run := .stopped, requests := [.reset] }
     s.run = .stopped ∧ (candidates s).filter wakesStop = [.reset] ∧ isReset .reset = true) ∧
    (let s : State := { base with run := .stopped, requests := [.cop, .clockMonitor] }
     s.run = .stopped ∧ (candidates s).filter wakesStop = [.cop, .clockMonitor] ∧ isReset .clockMonitor = true) := by
  decide

/-- WaitStopStep, STOPPED, nothing that ends it: no request, an enabled peripheral, a masked IRQ; a masked XIRQ with I = 1 and
IRQ, and with I = 0 alone. -/
theorem test_met_stopped_stays :
    (let s : State := { base with run := .stopped }
     (candidates s).filter wakesStop = [] ∧ .xirq ∉ s.requests) ∧
    (let s : State := { base with run := .stopped, ccr := 0, requests := [.peripheral 0xFFF0#16] }
     (candidates s).filter wakesStop = [] ∧ .xirq ∉ s.requests) ∧
    (let s : State := { base with run := .stopped, requests := [.irq] }
     (candidates s).filter wakesStop = [] ∧ .xirq ∉ s.requests) ∧
    (let s : State := { base with run := .stopped, requests := [.irq, .xirq] }
     (candidates s).filter wakesStop = [] ∧ .xirq ∈ s.requests) ∧
    (let s : State := { base with run := .stopped, ccr := 0x40#8, requests := [.xirq] }
     (candidates s).filter wakesStop = [] ∧ .xirq ∈ s.requests) := by
  decide

/-- EntryThenReturn, OtherEntries: the interrupt sources that are no reset. -/
theorem test_met_entries :
    isReset .irq = false ∧ isReset .xirq = false ∧ isReset (.peripheral 0xFFF0#16) = false := by
  decide

/-- JumpsAndCalls, CallThenReturn: operands that auto-modify SP and others, PC as base and not. -/
theorem test_met_jumpsAndCalls :
    addrAuto (.ext 0x1234#16) ≠ some .sp ∧ addrAuto (.idx (.auto .x true 0)) ≠ some .sp ∧
    addrAuto (.idx (.auto .sp true 0)) = some .sp ∧ idxAuto (.off5 .sp 0) ≠ some .sp ∧
    idxAuto (.auto .sp false 0) = some .sp ∧ idxUsesPc (.off5 .x 0) = false := by
  decide

/-- WaitAndStop: both values of S. -/
theorem test_met_waitAndStop : base.flagS = true ∧ { base with ccr := 0 }.flagS = false := by
  decide

/-- Compares, Loads: a 16-bit source that auto-modifies the register, and sources that do not. -/
theorem test_met_src16Auto :
    src16Auto (.imm 0) ≠ some .x ∧ src16Auto (.mem (.idx (.auto .x false 7))) = some .x ∧
    src16Auto (.mem (.idx (.auto .x false 7))) ≠ some .y ∧ src16Auto (.mem (.idx (.auto .y true 8))) = some .y ∧
    src16Auto (.mem (.idx (.auto .y true 8))) ≠ some .sp ∧ src16Auto (.mem (.idx (.auto .sp true 15))) = some .sp := by
  decide

/-- Stores: a destination that auto-modifies the register, and destinations that do not. -/
theorem test_met_stores :
    addrAuto (.dir 0) ≠ some .x ∧ addrAuto (.idx (.auto .x false 7)) = some .x ∧
    addrAuto (.ext 0) ≠ some .y ∧ addrAuto (.idx (.auto .y true 8)) = some .y ∧
    addrAuto (.idx (.off5 .sp 0)) ≠ some .sp ∧ addrAuto (.idx (.auto .sp true 15)) = some .sp := by
  decide

/-- LoadEffectiveAddress: post-modified and pre-modified registers. -/
theorem test_met_loadEffectiveAddress :
    idxPostAuto (.auto .x false 0) ≠ some .x ∧ idxPostAuto (.auto .x true 0) = some .x ∧
    idxPostAuto (.off5 .y 0) ≠ some .y ∧ idxPostAuto (.auto .y true 0) = some .y ∧
    idxPostAuto (.acc .sp .d) ≠ some .sp ∧ idxPostAuto (.auto .sp true 0) = some .sp := by
  decide

/-- DecimalAdjust: the smallest and the largest packed bytes. -/
theorem test_met_decimalAdjust : packed base.a ∧ packed 0x99#8 ∧ ¬ packed 0x9A#8 ∧ ¬ packed 0xA0#8 := by
  simp only [packed]
  decide

/-- LongDivisions, EDIV: the largest quotient that fits, the smallest that does not, a divisor of 0. -/
theorem test_met_ediv :
    (let s : State := { base with y := 0x0001#16, a := 0xFF#8, b := 0xFF#8, x := 0x0002#16 }
     s.x.toNat ≠ 0 ∧ (s.y.toNat * 65536 + s.d.toNat) / s.x.toNat = 65535) ∧
    (let s : State := { base with y := 0x0002#16, a := 0x00#8, b := 0x00#8, x := 0x0002#16 }
     s.x.toNat ≠ 0 ∧ (s.y.toNat * 65536 + s.d.toNat) / s.x.toNat = 65536) ∧
    { base with x := 0 }.x.toNat = 0 := by
  decide

/-- LongDivisions, EDIVS: the quotients at both ends of the range and just outside, a divisor of 0. -/
theorem test_met_edivs :
    (let s : State := { base with y := 0x0000#16, a := 0x7F#8, b := 0xFF#8, x := 0x0001#16 }
     s.x.toInt ≠ 0 ∧ (s.y.toInt * 65536 + s.d.toNat).tdiv s.x.toInt = 32767) ∧
    (let s : State := { base with y := 0x0000#16, a := 0x80#8, b := 0x00#8, x := 0xFFFF#16 }
     s.x.toInt ≠ 0 ∧ (s.y.toInt * 65536 + s.d.toNat).tdiv s.x.toInt = -32768) ∧
    (let s : State := { base with y := 0x0000#16, a := 0x80#8, b := 0x00#8, x := 0x0001#16 }
     s.x.toInt ≠ 0 ∧ (s.y.toInt * 65536 + s.d.toNat).tdiv s.x.toInt = 32768) ∧
    (let s : State := { base with y := 0x0000#16, a := 0x80#8, b := 0x01#8, x := 0xFFFF#16 }
     s.x.toInt ≠ 0 ∧ (s.y.toInt * 65536 + s.d.toNat).tdiv s.x.toInt = -32769) ∧
    { base with x := 0 }.x.toInt = 0 := by
  decide

/-- ShortDivisions: FDIV on both sides of D = X and with X = 0, IDIV, IDIVS at the end of the range and beyond. -/
theorem test_met_shortDivisions :
    (let s : State := { base with b := 0x01#8, x := 0x0002#16 }; s.d.toNat < s.x.toNat) ∧
    (let s : State := { base with b := 0x02#8, x := 0x0002#16 }; s.x.toNat ≤ s.d.toNat ∧ s.x.toNat ≠ 0) ∧
    (let s : State := { base with b := 0x02#8, x := 0 }; s.x.toNat ≤ s.d.toNat ∧ s.x.toNat = 0) ∧
    (let s : State := { base with a := 0x7F#8, b := 0xFF#8, x := 0x0001#16 }
     s.x.toInt ≠ 0 ∧ s.d.toInt.tdiv s.x.toInt = 32767) ∧
    (let s : State := { base with a := 0x80#8, b := 0x00#8, x := 0xFFFF#16 }
     s.x.toInt ≠ 0 ∧ s.d.toInt.tdiv s.x.toInt = 32768) ∧
    { base with x := 0 }.x.toInt = 0 := by
  decide

/-- OperandForms: codes on both sides of the sign, and two auto registers. -/
theorem test_met_operandForms :
    0 ≤ (7#4).toInt ∧ ¬ 0 ≤ (8#4).toInt ∧ AutoReg.x ≠ AutoReg.sp := by
  decide

/-- FetchCoherence: nothing in flight, a store eight bytes past PC, an instruction that changes PC, what a step leaves. -/
theorem test_met_fetchCoherence :
    olderBytes base.stale 0x4000 = [] ∧ 8 ≤ (0x4008#16 - base.pc).toNat ∧ ¬ 8 ≤ (0x4007#16 - base.pc).toNat ∧
    (Instr.bra 0x10#8 ≠ .rev ∧ Instr.bra 0x10#8 ≠ .revw ∧ okay (exec (.bra 0x10#8) base) fun t => t.pc != base.pc) ∧
    (settle base.pc (base.write8 0x4007#16 1)).stale = [(0x4007, 0)] ∧ (base.write8 0x4007#16 1).pc = base.pc := by
  decide

/-- A byte stored into the next instruction may or may not be seen by the fetch: it stands in `stale` with its old value. -/
theorem test_store_in_flight : (atNop.write8 0x4000#16 0x01#8).stale = [(0x4000, 0xA7#8)] := by
  decide

/-- Transfers: registers of both sizes. -/
theorem test_met_transfers :
    R16.x ≠ .y ∧ R16.x ≠ .d ∧ R8.a ≠ .b ∧ R8.b ≠ .a ∧ R8.a ≠ .ccr ∧
    { base with ccr := 0 }.flagX = false := by
  decide

/-- RuleEvaluation: terminator, separator and rule bytes, V and C both ways. -/
theorem test_met_ruleEvaluation :
    (let s : State := { base with x := 0x1000#16, mem := [(0x1000, 0xFF#8), (0x1001, 0xFF#8)] }
     s.read8 s.x = 0xFF#8 ∧ s.read16 s.x = 0xFFFF#16) ∧
    (let s : State := { base with x := 0x1000#16, ccr := 0x03#8, mem := [(0x1000, 0xFE#8)] }
     s.read8 s.x = 0xFE#8 ∧ s.flagV = true) ∧
    (let s : State := { base with x := 0x1000#16, ccr := 0x01#8, mem := [(0x1000, 0xFF#8), (0x1001, 0xFE#8)] }
     s.read16 s.x = 0xFFFE#16 ∧ s.flagV = false ∧ s.flagC = true) ∧
    (let s : State := { base with x := 0x1000#16, mem := [(0x1000, 0xFD#8)] }
     s.read8 s.x ≠ 0xFF#8 ∧ s.read8 s.x ≠ 0xFE#8 ∧ s.read16 s.x ≠ 0xFFFF#16 ∧ s.read16 s.x ≠ 0xFFFE#16 ∧
       s.flagV = false ∧ s.flagC = false) := by
  decide

/-- WeightedAverage: one element and none, each with nothing and with an interrupt or a reset let through. -/
theorem test_met_weightedAverage :
    (let s : State := { base with b := 0x01#8 }; candidates s = [] ∧ s.b ≠ 0) ∧ candidates base = [] ∧ base.b = 0 ∧
    (let s : State := { base with b := 0x01#8, ccr := 0, requests := [.irq] }; candidates s = [.irq] ∧ s.b ≠ 0) ∧
    candidates { base with ccr := 0, requests := [.irq] } = [.irq] ∧ candidates { base with requests := [.cop] } = [.cop] := by
  decide

/-- Two elements, pointers far above the stack. -/
def atWav : State := { base with b := 0x02#8, x := 0x1000#16, y := 0x2000#16 }

/-- The six bytes a split WAV pushes leave the bytes from `$1000` on as they are. -/
theorem test_push_keeps (sop : BitVec 32) (sow a : Word) (h : 0x1000 ≤ a.toNat) :
    (wavPush sop sow ((atWav.freeFlags 0x2F#8).spend 1)).read8 a = atWav.read8 a ∧
    (wavPush sop sow ((atWav.freeFlags 0x2F#8).spend 1)).sp = 0x0BFA#16 := by
  have ne : ∀ w : Word, w.toNat < 0x1000 → a ≠ w := fun w hw e => by subst e; omega
  have sp : ((atWav.freeFlags 0x2F#8).spend 1).sp = 0x0C00#16 := rfl
  simp only [wavPush, State.read8_push16, State.push16_sp, sp]
  refine ⟨?_, by decide⟩
  rw [if_neg (ne _ (by decide)), if_neg (ne _ (by decide)), if_neg (ne _ (by decide)), if_neg (ne _ (by decide)),
    if_neg (ne _ (by decide)), if_neg (ne _ (by decide))]
  rfl

/-- So does a frame pushed below them. -/
theorem test_frame_keeps (s : State) (vector rtn a : Word) (hs : s.sp = 0x0BFA#16) (h : 0x1000 ≤ a.toNat) :
    (s.takeException vector rtn false).read8 a = s.read8 a := by
  have ne : ∀ w : Word, w.toNat < 0x1000 → a ≠ w := fun w hw e => by subst e; omega
  rw [(entered_takeException s vector rtn false).1 a, hs]
  rw [if_neg (ne _ (by decide)), if_neg (ne _ (by decide)), if_neg (ne _ (by decide)), if_neg (ne _ (by decide)),
    if_neg (ne _ (by decide)), if_neg (ne _ (by decide)), if_neg (ne _ (by decide)), if_neg (ne _ (by decide)),
    if_neg (ne _ (by decide))]

/-- Both together. -/
theorem test_split_keeps (a : Word) (h : 0x1000 ≤ a.toNat) : (wavSplit .irq 1 0 0 atWav).read8 a = atWav.read8 a := by
  obtain ⟨h1, h2⟩ := test_push_keeps (wavProducts atWav 0 1) (wavWeights atWav 0 1) a h
  have mem : ∀ t u : State, u.mem = t.mem → u.read8 a = t.read8 a := fun t u e => State.read8_congr e a
  have all : ∀ (t : State) (x y : Word) (b : Byte) (v rtn : Word), t.sp = 0x0BFA#16 → t.read8 a = atWav.read8 a →
      (State.takeException { t with x := x, y := y, b := b } v rtn false).read8 a = atWav.read8 a :=
    fun t x y b v rtn e1 e2 => ((test_frame_keeps { t with x := x, y := y, b := b } v rtn a e1 h).trans (mem t _ rfl)).trans e2
  exact all _ _ _ _ _ _ h2 h1

/-- SplitWavResumes: IRQ after the first of two elements. -/
theorem test_met_splitWavResumes :
    isReset .irq = false ∧ 1 < atWav.b.toNat ∧
    (∀ j, 1 ≤ j → j < atWav.b.toNat →
      (wavSplit .irq 1 0 0 atWav).read8 (atWav.x + BitVec.ofNat 16 j) = atWav.read8 (atWav.x + BitVec.ofNat 16 j) ∧
      (wavSplit .irq 1 0 0 atWav).read8 (atWav.y + BitVec.ofNat 16 j) = atWav.read8 (atWav.y + BitVec.ofNat 16 j)) ∧
    ∃ u, exec .rti (wavSplit .irq 1 0 0 atWav) = .next u ∧ candidates { u with pc := atWav.pc } = [] := by
  have none : ∀ t : State, t.requests = [] → candidates t = [] := fun t h => by rw [candidates, h]; rfl
  have back : ∀ t : State, t.requests = [] →
      ∃ u, exec .rti t = .next u ∧ candidates { u with pc := atWav.pc } = [] :=
    fun t h => ⟨t.returnFromException, rfl, none _ h⟩
  have kept : (wavSplit .irq 1 0 0 atWav).requests = [] := by
    simp only [wavSplit, deliver, isReset, Bool.false_eq_true, if_false, State.takeException, State.enter_requests,
      State.stackFrame_requests, wavPush, State.push16_requests]
    rfl
  refine ⟨rfl, by decide, fun j h1 h2 => ?_, back _ kept⟩
  obtain rfl : j = 1 := by have : atWav.b.toNat = 2 := rfl; omega
  exact ⟨test_split_keeps _ (by decide), test_split_keeps _ (by decide)⟩

end Sys2Proof.Tests
end

section
/-! PROOFS. Additions and subtractions (00_scope.md R15): each shared operation in numbers, said once, then the statements over
their mnemonics. -/

namespace Sys2Proof.Machine
open Sys2Proof.Safety

/-! ### The shared operations in numbers -/

/-- An 8-bit addition in numbers; the operand's update does not touch the register the flags are kept from. -/
theorem addAcc_eq (cin : Bool) (r : Acc) (o : Src8) (s : State) :
    addAcc cin r o s = .next
      { (src8Update s o).setAcc r (BitVec.ofNat 8 ((s.acc r).toNat + (src8Val s o).toNat + cin.toNat)) with
        ccr := ccrAdd8 s (s.acc r) (src8Val s o) cin.toNat } := by
  have kept (v : Byte) : ((src8Update s o).setAcc r v).ccr = s.ccr := by simp
  simp only [addAcc]
  rw [add8_flags, add8_result, ccrAdd8_congr (kept _)]

/-- An 8-bit subtraction in numbers. -/
theorem subAcc_eq (cin : Bool) (r : Acc) (o : Src8) (s : State) :
    subAcc cin r o s = .next
      { (src8Update s o).setAcc r (BitVec.ofInt 8 ((s.acc r).toInt - (src8Val s o).toInt - cin.toNat)) with
        ccr := ccrSub8 s (s.acc r) (src8Val s o) cin.toNat } := by
  have kept (v : Byte) : ((src8Update s o).setAcc r v).ccr = s.ccr := by simp
  simp only [subAcc]
  rw [sub8_flags, sub8_result, ccrSub8_congr (kept _)]

/-- Without a borrow-in the difference is the plain one. -/
theorem subAcc_false_eq (r : Acc) (o : Src8) (s : State) :
    subAcc false r o s = .next
      { (src8Update s o).setAcc r (BitVec.ofInt 8 ((s.acc r).toInt - (src8Val s o).toInt)) with
        ccr := ccrSub8 s (s.acc r) (src8Val s o) 0 } := by
  simpa only [Bool.toNat_false, Nat.cast_zero, sub_zero] using subAcc_eq false r o s

/-- ADDD in numbers. -/
theorem execAddd_eq (o : Src16) (s : State) :
    execAddd o s = .next
      { (src16Update s o).setD (BitVec.ofNat 16 (s.d.toNat + (src16Val s o).toNat)) with
        ccr := ccrAdd16 s s.d (src16Val s o) } := by
  have kept (v : Word) : ((src16Update s o).setD v).ccr = s.ccr := by simp
  simp only [execAddd]
  rw [add16_flags, add16_result, ccrAdd16_congr (kept _)]

/-- SUBD in numbers. -/
theorem execSubd_eq (o : Src16) (s : State) :
    execSubd o s = .next
      { (src16Update s o).setD (BitVec.ofInt 16 (s.d.toInt - (src16Val s o).toInt)) with
        ccr := ccrSub16 s s.d (src16Val s o) } := by
  have kept (v : Word) : ((src16Update s o).setD v).ccr = s.ccr := by simp
  simp only [execSubd]
  rw [sub16_flags, sub16_result, ccrSub16_congr (kept _)]

/-- ABA in numbers. -/
theorem execAba_eq (s : State) :
    execAba s = .next { s with a := BitVec.ofNat 8 (s.a.toNat + s.b.toNat), ccr := ccrAdd8 s s.a s.b 0 } := by
  have kept (v : Byte) : { s with a := v }.ccr = s.ccr := rfl
  simp only [execAba]
  rw [add8_flags', add8_result', ccrAdd8_congr (kept _)]

/-- SBA in numbers. -/
theorem execSba_eq (s : State) :
    execSba s = .next { s with a := BitVec.ofInt 8 (s.a.toInt - s.b.toInt), ccr := ccrSub8 s s.a s.b 0 } := by
  have kept (v : Byte) : { s with a := v }.ccr = s.ccr := rfl
  simp only [execSba]
  rw [sub8_flags', sub8_result', ccrSub8_congr (kept _)]

/-! ### The statements -/

/-- Settles O30: each 8-bit form is `addAcc` of an accumulator and a carry-in. -/
theorem additions : Obligations.Additions := by
  refine ⟨fun o s => ⟨?adda, ?addb, ?adca, ?adcb⟩, execAddd_eq, execAba_eq⟩
  case adda => exact addAcc_eq false .a o s
  case addb => exact addAcc_eq false .b o s
  case adca => exact addAcc_eq s.flagC .a o s
  case adcb => exact addAcc_eq s.flagC .b o s

/-- Settles O31: each 8-bit form is `subAcc` of an accumulator and a borrow-in. -/
theorem subtractions : Obligations.Subtractions := by
  refine ⟨fun o s => ⟨?suba, ?subb, ?sbca, ?sbcb⟩, execSubd_eq, execSba_eq⟩
  case suba => exact subAcc_false_eq .a o s
  case subb => exact subAcc_false_eq .b o s
  case sbca => exact subAcc_eq s.flagC .a o s
  case sbcb => exact subAcc_eq s.flagC .b o s

end Sys2Proof.Machine
end

section
/-! PROOFS. Who moves PPAGE, the run state and the requests (10_state.md R37, R40, R41; log 20): an answer that keeps a field,
the shared operations that keep all three, then the statement over the instructions. -/

namespace Sys2Proof.Machine

/-! ### What an answer keeps -/

/-- Where it is a next state, the answer leaves `f` as it is in `s`. -/
structure Keeps {α : Type} (f : State → α) (s : State) (ans : Answer) : Prop where
  eq_of_next : ∀ t, ans = .next t → f t = f s

/-- PPAGE, the run state and the requests. -/
def State.control (s : State) : Byte × RunState × List IntSource := (s.ppage, s.run, s.requests)

theorem control_eq_iff (s t : State) :
    t.control = s.control ↔ t.ppage = s.ppage ∧ t.run = s.run ∧ t.requests = s.requests := by
  simp [State.control]

section Answers

variable {α : Type} {f : State → α} {s : State}

theorem keeps_next {t : State} (h : f t = f s) : Keeps f s (.next t) := by
  refine ⟨fun u hu => ?_⟩
  cases hu
  exact h

theorem keeps_ite {c : Prop} [Decidable c] {p q : Answer} (hp : Keeps f s p) (hq : Keeps f s q) :
    Keeps f s (if c then p else q) := by
  split
  · exact hp
  · exact hq

end Answers

/-! ### Updates that keep the control state -/

section Updates

variable (s : State)

@[simp] theorem control_spend (k : Nat) : (s.spend k).control = s.control := rfl
@[simp] theorem control_writeR8 (r : R8) (v : Byte) : (writeR8 s r v).control = s.control := by simp [State.control]
@[simp] theorem control_writeR16 (r : R16) (v : Word) : (writeR16 s r v).control = s.control := by simp [State.control]
@[simp] theorem control_addrUpdate (m : Addr) : (addrUpdate s m).control = s.control := by simp [State.control]
@[simp] theorem control_trailingUpdate (m : Addr) : (trailingUpdate s m).control = s.control := by simp [State.control]
@[simp] theorem control_moveDstUpdate (srcIdx : Bool) (m : Addr) : (moveDstUpdate s srcIdx m).control = s.control := by
  simp [State.control, moveDstUpdate]
@[simp] theorem control_takeException (vector rtn : Word) (setsX : Bool) :
    (s.takeException vector rtn setsX).control = s.control := by
  simp [State.control, State.takeException]
@[simp] theorem control_flagsDec (v r : Byte) : (flagsDec s v r).control = s.control := by simp [State.control, flagsDec]
@[simp] theorem control_flagsInc (v r : Byte) : (flagsInc s v r).control = s.control := by simp [State.control, flagsInc]
@[simp] theorem control_flagsNeg (v r : Byte) : (flagsNeg s v r).control = s.control := by simp [State.control, flagsNeg]
@[simp] theorem control_flagsCom (v r : Byte) : (flagsCom s v r).control = s.control := by simp [State.control, flagsCom]
@[simp] theorem control_flagsLeft (v r : Byte) : (flagsLeft s v r).control = s.control := by
  simp [State.control, flagsLeft]
@[simp] theorem control_flagsRight (v r : Byte) : (flagsRight s v r).control = s.control := by
  simp [State.control, flagsRight]
@[simp] theorem control_branchIf (c : Bool) (off : Word) : (branchIf s c off).control = s.control := by
  cases c <;> rfl
@[simp] theorem control_cntrAdd (d : Word) (c : Cntr) : (cntrAdd s d c).control = s.control := by cases c <;> rfl
@[simp] theorem control_ruleOutput (t : State) (ea : Word) : (ruleOutput s t ea).control = t.control := by
  unfold ruleOutput; split <;> rfl
@[simp] theorem control_wavFinish (sop : BitVec 32) (sow : Word) : (wavFinish sop sow s).control = s.control := by
  unfold wavFinish; dsimp only; split <;> rfl
@[simp] theorem control_transfer (r1 r2 : XReg) : (transfer r1 r2 s).control = s.control := by
  cases r1 <;> cases r2 <;> simp [transfer]
@[simp] theorem control_exchange (r1 r2 : XReg) : (exchange r1 r2 s).control = s.control := by
  cases r1 <;> cases r2 <;> simp [exchange]

end Updates

/-! ### Shared operations that keep the control state -/

section Operations

variable (s : State)

theorem shortBranch_keeps (c : Bool) (rr : Byte) : Keeps State.control s (shortBranch s c rr) :=
  keeps_next (control_branchIf ..)

theorem longBranch_keeps (c : Bool) (w : Word) : Keeps State.control s (longBranch s c w) :=
  keeps_next (control_branchIf ..)

theorem loopPrimitive_keeps (c : Cntr) (d : Word) (onZero : Bool) (off : BitVec 9) :
    Keeps State.control s (loopPrimitive s c d onZero off) :=
  keeps_next (by simp)

theorem trailingBranch_keeps (m : Addr) (c : Bool) (rr : Byte) :
    Keeps State.control s (shortBranch (trailingUpdate s m) c rr) :=
  keeps_next (by simp)

theorem logicAcc_keeps (f : Byte → Byte → Byte) (r : Acc) (o : Src8) : Keeps State.control s (logicAcc f r o s) :=
  keeps_next (by simp [State.control])

theorem bitAcc_keeps (r : Acc) (o : Src8) : Keeps State.control s (bitAcc r o s) :=
  keeps_next (by simp [State.control])

theorem cmpAcc_keeps (r : Acc) (o : Src8) : Keeps State.control s (cmpAcc r o s) :=
  keeps_next (by simp [State.control])

theorem cmpWord_keeps (v : Word) (o : Src16) : Keeps State.control s (cmpWord v o s (src16Update s o)) :=
  keeps_next (by simp [State.control])

theorem cmpAuto_keeps (r : AutoReg) (o : Src16) : Keeps State.control s (cmpAuto r o s) :=
  keeps_next (by simp [State.control])

theorem bitsMem_keeps (f : Byte → Byte) (m : Addr) : Keeps State.control s (bitsMem f m s) :=
  keeps_next (by simp [State.control])

theorem addAcc_keeps (cin : Bool) (r : Acc) (o : Src8) : Keeps State.control s (addAcc cin r o s) :=
  keeps_next (by simp [State.control])

theorem subAcc_keeps (cin : Bool) (r : Acc) (o : Src8) : Keeps State.control s (subAcc cin r o s) :=
  keeps_next (by simp [State.control])

theorem unaryMem_keeps (f : Byte → Byte) {g : State → Byte → Byte → State}
    (hg : ∀ t v r, (g t v r).control = t.control) (m : Addr) : Keeps State.control s (unaryMem f g m s) :=
  keeps_next ((hg ..).trans (control_addrUpdate s m))

theorem selectD_keeps (f : Word → Word → Word) (i : Idx) : Keeps State.control s (selectD f i s) :=
  keeps_next (by simp [State.control])

theorem selectMem16_keeps (f : Word → Word → Word) (i : Idx) : Keeps State.control s (selectMem16 f i s) :=
  keeps_next (by simp [State.control])

theorem selectA_keeps (f : Byte → Byte → Byte) (i : Idx) : Keeps State.control s (selectA f i s) :=
  keeps_next (by simp [State.control])

theorem selectMem8_keeps (f : Byte → Byte → Byte) (i : Idx) : Keeps State.control s (selectMem8 f i s) :=
  keeps_next (by simp [State.control])

theorem loadAcc_keeps (r : Acc) (o : Src8) : Keeps State.control s (loadAcc r o s) :=
  keeps_next (by simp [State.control])

theorem loadAuto_keeps (r : AutoReg) (o : Src16) : Keeps State.control s (loadAuto r o s) :=
  keeps_next (by simp [State.control])

theorem storeAcc_keeps (r : Acc) (m : Addr) : Keeps State.control s (storeAcc r m s) :=
  keeps_next (by simp [State.control])

theorem storeAuto_keeps (r : AutoReg) (m : Addr) : Keeps State.control s (storeAuto r m s) :=
  keeps_next (by simp [State.control])

/-- The default `DivZeroResult` leaves the stated registers (42_arithmetic.md R207 (f)). -/
theorem divCorner_eq (stated free : State) : divCorner stated free = stated := rfl

theorem execDaa_keeps : Keeps State.control s (execDaa s) := by
  unfold execDaa
  dsimp only
  split
  · exact keeps_next rfl
  · exact keeps_next rfl

theorem execMovb_keeps (src : Src8) (dst : Addr) : Keeps State.control s (execMovb src dst s) := by
  cases src with
  | imm v => exact keeps_next (control_moveDstUpdate ..)
  | mem m => exact keeps_next ((control_moveDstUpdate ..).trans (control_trailingUpdate s m))

theorem execMovw_keeps (src : Src16) (dst : Addr) : Keeps State.control s (execMovw src dst s) := by
  cases src with
  | imm v => exact keeps_next (control_moveDstUpdate ..)
  | mem m => exact keeps_next ((control_moveDstUpdate ..).trans (control_trailingUpdate s m))

/-- With nothing let through a WAV runs to its end. -/
theorem wavRun_idle {s : State} (idle : candidates s = []) (sop : BitVec 32) (sow : Word) :
    wavRun sop sow s = .next (wavFinish sop sow s) := by
  rw [wavRun, idle]

theorem execWav_keeps {s : State} (idle : candidates s = []) : Keeps State.control s (execWav s) := by
  rw [execWav, wavRun_idle idle]
  exact keeps_next (control_wavFinish ..)

theorem execWavr_keeps {s : State} (idle : candidates s = []) : Keeps State.control s (execWavr s) := by
  have idle' : candidates (s.drop 6) = [] := idle
  rw [execWavr, wavRun_idle idle']
  exact keeps_next (control_wavFinish ..)

end Operations

/-! ### CALL and RTC keep the run state and the requests, WAI and STOP keep PPAGE and the requests -/

section Writers

variable (s : State)

theorem execCall_run (d : CallTo) : Keeps State.run s (execCall d s) := by
  cases d <;> exact keeps_next (by simp [linkFar, linkState])
theorem execCall_requests (d : CallTo) : Keeps State.requests s (execCall d s) := by
  cases d <;> exact keeps_next (by simp [linkFar, linkState])

theorem execRtc_run : Keeps State.run s (execRtc s) := keeps_next (by simp)
theorem execRtc_requests : Keeps State.requests s (execRtc s) := keeps_next (by simp)

theorem execWai_ppage : Keeps State.ppage s (execWai s) := keeps_next (by simp)
theorem execWai_requests : Keeps State.requests s (execWai s) := keeps_next (by simp)

theorem execStop_ppage : Keeps State.ppage s (execStop s) := keeps_ite (keeps_next rfl) (keeps_next (by simp))
theorem execStop_requests : Keeps State.requests s (execStop s) := keeps_ite (keeps_next rfl) (keeps_next (by simp))

end Writers

/-! ### Every instruction -/

/-- With nothing let through only CALL, RTC, WAI and STOP move the control state. -/
theorem exec_keepsControl {i : Instr} (hi : ¬ ((∃ d, i = .call d) ∨ i = .rtc ∨ i = .wai ∨ i = .stop)) {s : State}
    (idle : candidates s = []) : Keeps State.control s (exec i s) := by
  cases i with
  | call | rtc | wai | stop => simp at hi
  -- branches
  | bra | brn | bls | bhs | blo | bne | bvc | bvs | bpl | bmi | blt | ble | bcc | bcs | beq | bge | bgt | bhi =>
    exact shortBranch_keeps ..
  | lbra | lbrn | lbhi | lbls | lbcc | lbcs | lbne | lbeq | lbvc | lbvs | lbpl | lbmi | lbge | lblt | lbgt | lble | lbhs
  | lblo => exact longBranch_keeps ..
  | brclr | brset => exact trailingBranch_keeps ..
  | ibeq | ibne | dbeq | dbne | tbeq | tbne => exact loopPrimitive_keeps ..
  -- a source operand
  | anda | andb | eora | eorb | oraa | orab => exact logicAcc_keeps ..
  | bita | bitb => exact bitAcc_keeps ..
  | cmpa | cmpb => exact cmpAcc_keeps ..
  | cpd => exact cmpWord_keeps ..
  | cps | cpx | cpy => exact cmpAuto_keeps ..
  | adca | adcb | adda | addb => exact addAcc_keeps ..
  | sbca | sbcb | suba | subb => exact subAcc_keeps ..
  | addd | subd | ldd => exact keeps_next (by simp [State.control])
  | ldaa | ldab => exact loadAcc_keeps ..
  | lds | ldx | ldy => exact loadAuto_keeps ..
  -- memory
  | bset m mm => exact bitsMem_keeps s (· ||| mm) m
  | bclr m mm => exact bitsMem_keeps s (· &&& ~~~mm) m
  | dec => exact unaryMem_keeps s (· - 1) control_flagsDec _
  | inc => exact unaryMem_keeps s (· + 1) control_flagsInc _
  | neg => exact unaryMem_keeps s (0 - ·) control_flagsNeg _
  | com => exact unaryMem_keeps s (~~~ ·) control_flagsCom _
  | lsl | asl | rol => exact unaryMem_keeps s _ control_flagsLeft _
  | lsr | asr | ror => exact unaryMem_keeps s _ control_flagsRight _
  | clr | tst | std | jmp => exact keeps_next (by simp [State.control])
  | staa | stab => exact storeAcc_keeps ..
  | sts | stx | sty => exact storeAuto_keeps ..
  | emaxd | emind => exact selectD_keeps ..
  | emaxm | eminm => exact selectMem16_keeps ..
  | maxa | mina => exact selectA_keeps ..
  | maxm | minm => exact selectMem8_keeps ..
  | movb => exact execMovb_keeps ..
  | movw => exact execMovw_keeps ..
  | jsr m => exact keeps_next (by simp [State.control, linkShort, linkState])
  -- an indexed operand
  | etbl | tbl | leax | leay | leas => exact keeps_next (by simp [State.control])
  -- registers
  | exg => exact keeps_next (control_exchange ..)
  | tfr => exact keeps_next (control_transfer ..)
  | sex => exact keeps_next (control_writeR16 ..)
  | tsx | tsy | txs | tys | xgdx | xgdy | tab | tba | tap | tpa | abx | aby | des | ins => exact keeps_next rfl
  | andcc | orcc | clc | cli | clv | sec | sei | sev | cba | clra | clrb | tsta | tstb => exact keeps_next rfl
  | deca | decb | inca | incb | nega | negb | coma | comb | dex | dey | inx | iny | aba | sba => exact keeps_next rfl
  | lsla | lslb | lsld | asla | aslb | asld | lsra | lsrb | lsrd | asra | asrb | rola | rolb | rora | rorb =>
    exact keeps_next rfl
  | daa => exact execDaa_keeps s
  | mul | emul | emuls => exact keeps_next rfl
  | emacs => exact keeps_next (by simp [State.control])
  | fdiv | idiv => exact keeps_ite (keeps_next rfl) (keeps_next rfl)
  | ediv | edivs =>
    refine keeps_ite (keeps_next ?_) (keeps_ite (keeps_next ?_) (keeps_next ?_)) <;>
      simp [State.control, divCorner_eq, freeYD]
  | idivs =>
    refine keeps_ite (keeps_next ?_) (keeps_ite (keeps_next ?_) (keeps_next ?_)) <;>
      simp [State.control, divCorner_eq, freeXD]
  -- the stack, exceptions
  | psha | pshb | pshc | pshd | pshx | pshy | bsr | bgnd => exact keeps_next (by simp [State.control])
  | pula | pulb | pulc | puld | pulx | puly | rts | rti | nop => exact keeps_next rfl
  | trap | swi => exact keeps_next (control_takeException ..)
  -- fuzzy logic
  | mem => exact keeps_next (by simp [State.control])
  | rev =>
    exact keeps_ite (keeps_next rfl) (keeps_ite (keeps_next rfl)
      (keeps_ite (keeps_next (control_ruleOutput ..)) (keeps_next rfl)))
  | revw =>
    exact keeps_ite (keeps_next rfl) (keeps_ite
      (keeps_ite (keeps_next rfl) (keeps_ite (keeps_next rfl) (keeps_next rfl)))
      (keeps_ite (keeps_next (control_ruleOutput ..)) (keeps_next rfl)))
  | wav => exact execWav_keeps idle
  | wavr => exact execWavr_keeps idle

/-- Settles O13: of the three fields CALL and RTC move PPAGE alone, WAI and STOP the run state alone, the others none. -/
theorem controlWriters : Obligations.ControlWriters := by
  intro i s t idle h
  by_cases hi : (∃ d, i = .call d) ∨ i = .rtc ∨ i = .wai ∨ i = .stop
  · obtain ⟨d, rfl⟩ | rfl | rfl | rfl := hi
    · exact ⟨fun hc => absurd rfl (hc d), fun _ _ => (execCall_run s d).eq_of_next t h,
        (execCall_requests s d).eq_of_next t h⟩
    · exact ⟨fun _ hr => absurd rfl hr, fun _ _ => (execRtc_run s).eq_of_next t h, (execRtc_requests s).eq_of_next t h⟩
    · exact ⟨fun _ _ => (execWai_ppage s).eq_of_next t h, fun hw => absurd rfl hw, (execWai_requests s).eq_of_next t h⟩
    · exact ⟨fun _ _ => (execStop_ppage s).eq_of_next t h, fun _ hs => absurd rfl hs,
        (execStop_requests s).eq_of_next t h⟩
  · obtain ⟨hpage, hrun, hreq⟩ := (control_eq_iff s t).1 ((exec_keepsControl hi idle).eq_of_next t h)
    exact ⟨fun _ _ => hpage, fun _ _ => hrun, hreq⟩

end Sys2Proof.Machine
end

section
/-! PROOFS. Memory: the two bytes of a word (20_memory.md R53, R55, R58; log 38), what a fetch may see and what a step leaves in
flight (R69, 10_state.md R43; log 19), and the canonical form under every step. -/

namespace Sys2Proof.Machine

/-! ### The two bytes of a word -/

theorem hiByte_eq_ofNat (v : Word) : hiByte v = BitVec.ofNat 8 (v.toNat / 256) := by
  apply BitVec.eq_of_toNat_eq
  simp [hiByte, Nat.shiftRight_eq_div_pow]

theorem loByte_eq_ofNat (v : Word) : loByte v = BitVec.ofNat 8 v.toNat := by
  apply BitVec.eq_of_toNat_eq
  simp [loByte]

/-- The byte after an address is another byte, past the top too (R58). -/
theorem word_succ_ne_self (ea : Word) : ea + 1 ≠ ea := by
  intro e
  bv_omega

/-- Settles O47: the store of a word is read back byte by byte, two stores of a byte are read back as a word. -/
theorem byteOrder : Obligations.ByteOrder := by
  intro s ea v h l
  have next : ea + 1 ≠ ea := word_succ_ne_self ea
  refine ⟨?_, ?_, read16_of_storesWord (fun b => State.read8_write16 s ea b v), ?_⟩
  · rw [State.read8_write16, if_pos rfl, hiByte_eq_ofNat]
  · rw [State.read8_write16, if_neg next, if_pos rfl, loByte_eq_ofNat]
  · have high : ((s.write8 ea h).write8 (ea + 1) l).read8 ea = h := by
      rw [State.read8_write8, if_neg next.symm, State.read8_write8, if_pos rfl]
    have low : ((s.write8 ea h).write8 (ea + 1) l).read8 (ea + 1) = l := by
      rw [State.read8_write8, if_pos rfl]
    rw [State.read16, high, low, joinBytes_toNat]

/-! ### What an answer leads to -/

/-- Where it is a next state, the answer is related to `s` by `R`. -/
structure Leads (R : State → State → Prop) (s : State) (ans : Answer) : Prop where
  rel_of_next : ∀ t, ans = .next t → R s t

/-- `t` has memory in its canonical form where `s` has. -/
def CanonKept (s t : State) : Prop := s.mem.wf = true → t.mem.wf = true

/-- What every instruction but REV and REVW leaves: memory in its canonical form, and, where PC moved, a queue refilled
(R69). -/
structure Coherent (s t : State) : Prop where
  canon : CanonKept s t
  refilled : t.pc = s.pc ∨ t.stale = []

section Answers

variable {R : State → State → Prop} {s t : State}

theorem leads_next (h : R s t) : Leads R s (.next t) := by
  refine ⟨fun u hu => ?_⟩
  cases hu
  exact h

theorem leads_ite {c : Prop} [Decidable c] {p q : Answer} (hp : Leads R s p) (hq : Leads R s q) :
    Leads R s (if c then p else q) := by
  split
  · exact hp
  · exact hq

theorem canonKept_of_mem (h : t.mem = s.mem) : CanonKept s t := by
  intro hs
  rw [h]
  exact hs

/-- An instruction that touches neither memory nor PC. -/
theorem leads_still (hm : t.mem = s.mem) (hp : t.pc = s.pc) : Leads Coherent s (.next t) :=
  leads_next ⟨canonKept_of_mem hm, .inl hp⟩

/-- An instruction that may store and goes on with the next one. -/
theorem leads_stored (hm : CanonKept s t) (hp : t.pc = s.pc) : Leads Coherent s (.next t) := leads_next ⟨hm, .inl hp⟩

/-- A change of flow. -/
theorem leads_goto (hm : CanonKept s t) (target : Word) : Leads Coherent s (.next (t.goto target)) :=
  leads_next ⟨hm, .inr rfl⟩

end Answers

/-! ### Updates and shared operations -/

section Operations

variable (s : State)

theorem branchIf_coherent {u : State} (hm : u.mem = s.mem) (hp : u.pc = s.pc) (c : Bool) (off : Word) :
    Leads Coherent s (.next (branchIf u c off)) := by
  cases c
  · exact leads_still hm hp
  · exact leads_goto (canonKept_of_mem hm) _

@[simp] theorem cntrAdd_mem (d : Word) (c : Cntr) : (cntrAdd s d c).mem = s.mem := by cases c <;> rfl
@[simp] theorem cntrAdd_pc (d : Word) (c : Cntr) : (cntrAdd s d c).pc = s.pc := by cases c <;> rfl

@[simp] theorem transfer_mem (r1 r2 : XReg) : (transfer r1 r2 s).mem = s.mem := by
  cases r1 <;> cases r2 <;> simp [transfer]
@[simp] theorem transfer_pc (r1 r2 : XReg) : (transfer r1 r2 s).pc = s.pc := by
  cases r1 <;> cases r2 <;> simp [transfer]
@[simp] theorem exchange_mem (r1 r2 : XReg) : (exchange r1 r2 s).mem = s.mem := by
  cases r1 <;> cases r2 <;> simp [exchange]
@[simp] theorem exchange_pc (r1 r2 : XReg) : (exchange r1 r2 s).pc = s.pc := by
  cases r1 <;> cases r2 <;> simp [exchange]

@[simp] theorem moveDstUpdate_mem (srcIdx : Bool) (m : Addr) : (moveDstUpdate s srcIdx m).mem = s.mem := by
  simp [moveDstUpdate]
@[simp] theorem moveDstUpdate_pc (srcIdx : Bool) (m : Addr) : (moveDstUpdate s srcIdx m).pc = s.pc := by
  simp [moveDstUpdate]

@[simp] theorem wavFinish_mem (sop : BitVec 32) (sow : Word) : (wavFinish sop sow s).mem = s.mem := by
  unfold wavFinish; dsimp only; split <;> rfl
@[simp] theorem wavFinish_pc (sop : BitVec 32) (sow : Word) : (wavFinish sop sow s).pc = s.pc := by
  unfold wavFinish; dsimp only; split <;> rfl

/-- The flags `g` of a one-operand instruction are computed without touching memory or PC. -/
theorem unaryMem_coherent (f : Byte → Byte) {g : State → Byte → Byte → State}
    (hg : ∀ t v r, (g t v r).mem = t.mem ∧ (g t v r).pc = t.pc) (m : Addr) : Leads Coherent s (unaryMem f g m s) :=
  leads_stored (fun h => by simp [(hg _ _ _).1, State.wf_write8, h]) (by simp [(hg _ _ _).2])

theorem execDaa_coherent : Leads Coherent s (execDaa s) := by
  unfold execDaa
  dsimp only
  split
  · exact leads_still rfl rfl
  · exact leads_still rfl rfl

theorem execMovb_coherent (src : Src8) (dst : Addr) : Leads Coherent s (execMovb src dst s) := by
  cases src <;> exact leads_stored (fun h => by simp [State.wf_write8, h]) (by simp)

theorem execMovw_coherent (src : Src16) (dst : Addr) : Leads Coherent s (execMovw src dst s) := by
  cases src <;> exact leads_stored (fun h => by simp [State.wf_write16, h]) (by simp)

theorem execCall_coherent (d : CallTo) : Leads Coherent s (execCall d s) := by
  cases d <;>
    exact leads_goto (fun h => by simp [linkFar, linkState, State.wf_push8, State.wf_push16, h]) _

theorem ruleOutput_canonKept {u : State} (hm : u.mem = s.mem) (ea pc : Word) :
    CanonKept s { ruleOutput s u ea with pc := pc } := by
  intro h
  have hu : u.mem.wf = true := canonKept_of_mem hm h
  unfold ruleOutput
  split
  · exact State.wf_write8 _ _ hu
  · exact hu

theorem execRev_canonKept : Leads CanonKept s (execRev s) :=
  leads_ite (leads_next (canonKept_of_mem rfl)) (leads_ite (leads_next (canonKept_of_mem rfl))
    (leads_ite (leads_next (ruleOutput_canonKept s (by rfl) _ _)) (leads_next (canonKept_of_mem rfl))))

theorem execRevw_canonKept : Leads CanonKept s (execRevw s) :=
  leads_ite (leads_next (canonKept_of_mem rfl)) (leads_ite
    (leads_ite (leads_next (canonKept_of_mem rfl))
      (leads_ite (leads_next (canonKept_of_mem rfl)) (leads_next (canonKept_of_mem rfl))))
    (leads_ite (leads_next (ruleOutput_canonKept s (by rfl) _ _)) (leads_next (canonKept_of_mem rfl))))

end Operations

/-! ### Exceptions, delivery and waking -/

section Exceptions

variable {s : State}

theorem takeException_canonKept (vector rtn : Word) (setsX : Bool) : CanonKept s (s.takeException vector rtn setsX) := by
  intro h
  rw [State.takeException, State.enter_mem]
  exact State.wf_stackFrame rtn h

@[simp] theorem takeException_stale (vector rtn : Word) (setsX : Bool) : (s.takeException vector rtn setsX).stale = [] :=
  State.enter_stale ..

theorem deliver_canonKept (src : IntSource) (rtn : Word) : CanonKept s (deliver src rtn s) := by
  unfold deliver
  split
  · exact canonKept_of_mem rfl
  · exact takeException_canonKept _ _ _

@[simp] theorem deliver_stale (src : IntSource) (rtn : Word) : (deliver src rtn s).stale = [] := by
  unfold deliver
  split
  · rfl
  · exact takeException_stale ..

theorem wake_mem (src : IntSource) : (wake src s).mem = s.mem := by
  unfold wake
  split
  · rfl
  · exact State.enter_mem s (vectorOf src) (src == .xirq)

theorem wavSplit_canonKept (src : IntSource) (k : Nat) (sop : BitVec 32) (sow : Word) :
    CanonKept s (wavSplit src k sop sow s) := by
  intro h
  exact deliver_canonKept src _ (State.wf_push16 _ (State.wf_push16 _ (State.wf_push16 _ h)))

/-- A WAV ends, is abandoned by a reset, or is split; the last two refill the queue. -/
theorem wavRun_coherent (sop : BitVec 32) (sow : Word) : Leads Coherent s (wavRun sop sow s) := by
  have ends : Leads Coherent s (.next (wavFinish sop sow s)) := leads_still (wavFinish_mem ..) (wavFinish_pc ..)
  unfold wavRun
  split
  · exact ends
  · refine leads_ite ends (leads_ite (leads_next ⟨?_, .inr (deliver_stale ..)⟩) (leads_next ⟨?_, .inr (deliver_stale ..)⟩))
    · exact fun h => deliver_canonKept (s := s.spend 1) _ _ h
    · exact wavSplit_canonKept _ _ _ _

theorem execWavr_coherent : Leads Coherent s (execWavr s) := by
  refine ⟨fun t h => ?_⟩
  obtain ⟨canon, refilled⟩ := (wavRun_coherent (s := s.drop 6) _ _).rel_of_next t h
  exact ⟨canon, refilled⟩

end Exceptions

/-! ### Every instruction -/

/-- By what an instruction does to memory and PC: nothing, a branch, a store, a change of flow. -/
theorem exec_coherent {i : Instr} (hrev : i ≠ .rev) (hrevw : i ≠ .revw) (s : State) : Leads Coherent s (exec i s) := by
  cases i with
  | rev => exact absurd rfl hrev
  | revw => exact absurd rfl hrevw
  -- branches
  | bra | brn | bls | bhs | blo | bne | bvc | bvs | bpl | bmi | blt | ble | bcc | bcs | beq | bge | bgt | bhi
  | lbra | lbrn | lbhi | lbls | lbcc | lbcs | lbne | lbeq | lbvc | lbvs | lbpl | lbmi | lbge | lblt | lbgt | lble | lbhs
  | lblo => exact branchIf_coherent s rfl rfl ..
  | brclr | brset => exact branchIf_coherent s (trailingUpdate_mem ..) (trailingUpdate_pc ..) ..
  | ibeq | ibne | dbeq | dbne | tbeq | tbne => exact branchIf_coherent s (cntrAdd_mem ..) (cntrAdd_pc ..) ..
  -- an operand that is only read
  | anda | andb | eora | eorb | oraa | orab | bita | bitb | cmpa | cmpb | cpd | cps | cpx | cpy
  | adca | adcb | adda | addb | sbca | sbcb | suba | subb | addd | subd | ldaa | ldab | ldd | lds | ldx | ldy | tst
  | emaxd | emind | maxa | mina | etbl | tbl | leax | leay | leas => exact leads_still (by simp) (by simp)
  -- registers
  | exg | tfr | sex => exact leads_still (by simp) (by simp)
  | tsx | tsy | txs | tys | xgdx | xgdy | tab | tba | tap | tpa | abx | aby | des | ins
  | andcc | orcc | clc | cli | clv | sec | sei | sev | cba | clra | clrb | tsta | tstb
  | deca | decb | inca | incb | nega | negb | coma | comb | dex | dey | inx | iny | aba | sba
  | lsla | lslb | lsld | asla | aslb | asld | lsra | lsrb | lsrd | asra | asrb | rola | rolb | rora | rorb
  | mul | emul | emuls | pula | pulb | pulc | puld | pulx | puly | nop => exact leads_still rfl rfl
  | daa => exact execDaa_coherent s
  | fdiv | idiv => exact leads_ite (leads_still rfl rfl) (leads_still rfl rfl)
  | ediv | edivs | idivs => exact leads_ite (leads_still rfl rfl) (leads_ite (leads_still rfl rfl) (leads_still rfl rfl))
  | wav => exact wavRun_coherent ..
  | wavr => exact execWavr_coherent
  -- a store of one byte
  | bset | bclr | clr | staa | stab | maxm | minm | mem =>
    exact leads_stored (fun h => by simp [State.wf_write8, h]) (by simp)
  | dec => exact unaryMem_coherent s (· - 1) (g := flagsDec) (fun _ _ _ => ⟨rfl, rfl⟩) _
  | inc => exact unaryMem_coherent s (· + 1) (g := flagsInc) (fun _ _ _ => ⟨rfl, rfl⟩) _
  | neg | com | lsl | asl | rol | lsr | asr | ror => exact unaryMem_coherent s _ (fun _ _ _ => by exact ⟨rfl, rfl⟩) _
  | movb => exact execMovb_coherent ..
  | psha | pshb | pshc => exact leads_stored (State.wf_push8 _) rfl
  -- a store of more bytes
  | std | sts | stx | sty | emaxm | eminm => exact leads_stored (fun h => by simp [State.wf_write16, h]) (by simp)
  | movw => exact execMovw_coherent ..
  | pshd | pshx | pshy => exact leads_stored (State.wf_push16 _) (by simp)
  | emacs => exact leads_stored (fun h => by simp [State.wf_write32, h]) (by simp)
  | wai => exact leads_stored (State.wf_stackFrame s.pc) (by simp)
  | stop => exact leads_ite (leads_still rfl rfl) (leads_stored (State.wf_stackFrame s.pc) (by simp))
  -- a change of flow
  | jmp => exact leads_goto (canonKept_of_mem (addrUpdate_mem ..)) _
  | rts | rtc | rti => exact leads_goto (canonKept_of_mem (by rfl)) _
  | bsr => exact leads_goto (State.wf_push16 _) _
  | jsr => exact leads_goto (fun h => by simp [linkShort, linkState, State.wf_push16, h]) _
  | call => exact execCall_coherent ..
  | trap | swi => exact leads_next ⟨takeException_canonKept _ _ _, .inr (takeException_stale ..)⟩
  | bgnd => exact leads_goto (State.wf_stackFrame s.pc) _

theorem exec_canonKept (i : Instr) (s : State) : Leads CanonKept s (exec i s) := by
  by_cases hrev : i = .rev
  · subst hrev
    exact execRev_canonKept s
  · by_cases hrevw : i = .revw
    · subst hrevw
      exact execRevw_canonKept s
    · exact ⟨fun t h => ((exec_coherent hrev hrevw s).rel_of_next t h).canon⟩

/-! ### What a fetch sees, what a step leaves in flight -/

theorem fetchByte_eq_read8 {s : State} {ea : Word} (h : olderBytes s.stale ea.toNat = []) (k : Nat) :
    fetchByte s k ea = s.read8 ea := by
  rw [fetchByte, h, nthByte]

/-- Memory's byte, or one it had before a store still in flight (R69). -/
theorem fetchByte_or (s : State) (k : Nat) (ea : Word) :
    fetchByte s k ea = s.read8 ea ∨ (ea.toNat, fetchByte s k ea) ∈ s.stale :=
  (nthByte_mem ..).imp_right (olderBytes_mem _ _ _)

theorem write8_stale_of_far {s : State} {ea : Word} (h : 8 ≤ (ea - s.pc).toNat) (v : Byte) :
    (s.write8 ea v).stale = s.stale := by
  have out : inQueue s.pc ea = false := decide_eq_false (Nat.not_lt.2 h)
  simp [State.write8, out]

theorem mem_settle_stale {next : Word} {t : State} {c : Host.Cell} (h : c ∈ (settle next t).stale) :
    c ∈ t.stale ∧ (t.pc = next → (BitVec.ofNat 16 c.1 - next).toNat < 8) := by
  by_cases hpc : t.pc = next
  · simp only [settle, if_pos hpc, List.mem_filter] at h
    exact ⟨h.1, fun _ => of_decide_eq_true h.2⟩
  · simp only [settle, if_neg hpc] at h
    exact ⟨h, fun e => absurd e hpc⟩

/-- Settles O48: the fetch and the store by what `stale` holds, the change of flow over the instructions, the rest by
`settle`. -/
theorem fetchCoherence : Obligations.FetchCoherence := by
  refine ⟨fun s k ea => ⟨fun h => fetchByte_eq_read8 h k, fetchByte_or s k ea⟩,
    fun s ea v h => write8_stale_of_far h v, fun i s t hrev hrevw h moved => ?_,
    fun next t => ⟨rfl, fun c hc => mem_settle_stale hc⟩⟩
  exact ((exec_coherent hrev hrevw s).rel_of_next t h).refilled.resolve_left moved

/-! ### Every step -/

/-- A step that runs an instruction decodes it from the bytes fetched, then settles the queue. -/
theorem runInstr_cases {s t : State} (h : runInstr s = .next t) :
    ∃ i rest u, decode (fetchBytes s) = .ok (i, rest) ∧
      exec i { fetchSpend s with pc := s.pc + BitVec.ofNat 16 (6 - rest.length) } = .next u ∧
      t = settle (s.pc + BitVec.ofNat 16 (6 - rest.length)) u := by
  unfold runInstr at h
  split at h
  · next i rest hd =>
    simp only [runDecoded, checked_eq] at h
    split at h
    · next u hu =>
      cases h
      exact ⟨i, rest, u, hd, hu, rfl⟩
    · cases h
    · cases h
  · cases h

/-- What a step from `s` to `t` does (60_exceptions.md R509, R514, R515). -/
inductive StepCase (s t : State) : Prop where
  /-- No request is let through: the instruction at PC runs. -/
  | runs (running : s.run = .running) (idle : candidates s = []) (ran : runInstr s = .next t)
  /-- A request is let through, and one more instruction runs before it. -/
  | postpones (running : s.run = .running) (pending : candidates s ≠ []) (ran : runInstr (s.spend 1) = .next t)
  /-- A request is delivered between two instructions. -/
  | delivers (running : s.run = .running) (src : IntSource) (enabled : src ∈ candidates s)
      (entered : t = deliver src s.pc (s.spend 1))
  /-- A request ends WAITING or STOPPED. -/
  | wakes (halted : s.run ≠ .running) (src : IntSource) (enabled : src ∈ candidates s)
      (ends : s.run = .stopped → wakesStop src = true) (woken : t = wake src s)
  /-- A masked XIRQ ends STOPPED. -/
  | resumes (stopped : s.run = .stopped) (masked : s.flagX = true ∧ .xirq ∈ s.requests) (resumed : t = stopContinue s)
  /-- Nothing ends WAITING or STOPPED. -/
  | waits (halted : s.run ≠ .running) (same : t = s)

theorem stepRunning_cases {s t : State} (running : s.run = .running) (h : stepRunning s = .next t) : StepCase s t := by
  unfold stepRunning at h
  split at h
  · next idle => exact .runs running idle h
  · next c cs cands =>
    simp only [checked_eq] at h
    split at h
    · cases h
      exact .delivers running _ (cands ▸ (highest_spec cs c).1) rfl
    · exact .postpones running (by simp [cands]) h

theorem stepWaiting_cases {s t : State} (waiting : s.run = .waiting) (h : stepWaiting s = .next t) : StepCase s t := by
  unfold stepWaiting at h
  split at h
  · cases h
    exact .waits (by simp [waiting]) rfl
  · next c cs cands =>
    simp only [checked_eq] at h
    cases h
    exact .wakes (by simp [waiting]) _ (cands ▸ (highest_spec cs c).1) (by simp [waiting]) rfl

theorem stepStopped_cases {s t : State} (stopped : s.run = .stopped) (h : stepStopped s = .next t) : StepCase s t := by
  have halted : s.run ≠ .running := by simp [stopped]
  unfold stepStopped at h
  split at h
  · next c cs cands =>
    simp only [checked_eq] at h
    cases h
    have mem : highest c cs ∈ (candidates s).filter wakesStop := cands ▸ (highest_spec cs c).1
    obtain ⟨enabled, ends⟩ := List.mem_filter.1 mem
    exact .wakes halted _ enabled (fun _ => ends) rfl
  · split at h
    · next masked =>
      cases h
      exact .resumes stopped masked rfl
    · cases h
      exact .waits halted rfl

theorem step_cases {s t : State} (h : step s = .next t) : StepCase s t := by
  unfold step cycle at h
  split at h
  · next run => exact stepRunning_cases run h
  · next run => exact stepWaiting_cases run h
  · next run => exact stepStopped_cases run h

@[simp] theorem fetchSpend_mem (s : State) : (fetchSpend s).mem = s.mem := by
  unfold fetchSpend
  split <;> rfl

theorem runInstr_canonKept (s : State) : Leads CanonKept s (runInstr s) := by
  refine ⟨fun t h hs => ?_⟩
  obtain ⟨i, rest, u, -, hu, rfl⟩ := runInstr_cases h
  have fetched : (fetchSpend s).mem.wf = true := by rw [fetchSpend_mem, hs]
  exact (exec_canonKept i _).rel_of_next u hu fetched

/-- Settles O9: only an instruction's stores and a stacked frame write memory, and both keep the form. -/
theorem memoryStaysCanonical : Obligations.MemoryStaysCanonical := by
  intro s t hs h
  cases step_cases h with
  | runs _ _ ran => exact (runInstr_canonKept s).rel_of_next t ran hs
  | postpones _ _ ran => exact (runInstr_canonKept (s.spend 1)).rel_of_next t ran hs
  | delivers _ src _ entered =>
    rw [entered]
    exact deliver_canonKept src s.pc (s := s.spend 1) hs
  | wakes _ src _ _ woken => rw [woken, wake_mem, hs]
  | resumes _ _ resumed =>
    rw [resumed]
    exact hs
  | waits _ same => rw [same, hs]

end Sys2Proof.Machine
end

section
/-! PROOFS. The postbytes and the operand fields, each way (30_encoding.md R92, R102, R103): what the decoder takes apart is what
the encoder puts together. -/

namespace Sys2Proof

/-! ### The register codes -/

@[simp] theorem baseOf_code (r : Base) : baseOf r.code = r := by cases r <;> rfl
@[simp] theorem autoRegOf_code (r : AutoReg) : autoRegOf r.code = some r := by cases r <;> rfl
@[simp] theorem cntrOf_code (c : Cntr) : cntrOf c.code = some c := by cases c <;> rfl
@[simp] theorem xregOf_code (r : XReg) : xregOf r.code = some r := by
  cases r with
  | r8 r => cases r <;> rfl
  | r16 r => cases r <;> rfl

/-! ### The postbyte `xb` (R92) -/

/-- The postbyte of a class: the first byte `encIdx` writes. -/
def IdxPost.byte : IdxPost → Byte
  | .off5 r n => r.code ++ 0#1 ++ n
  | .auto r post n => r.code ++ 1#1 ++ BitVec.ofBool post ++ n
  | .acc r o => 0b111#3 ++ r.code ++ 1#1 ++ o.code
  | .off9 r sign => 0b111#3 ++ r.code ++ 0b00#2 ++ BitVec.ofBool sign
  | .off16 r => 0b111#3 ++ r.code ++ 0b010#3
  | .indD r => 0b111#3 ++ r.code ++ 0b111#3
  | .ind16 r => 0b111#3 ++ r.code ++ 0b011#3

/-- Reading on after a postbyte of class `q` (R92, R107 (3)). -/
def IdxPost.read (k : Idx → List Byte → Parse) (r : List Byte) : IdxPost → Parse
  | .off5 b n => k (.off5 b n) r
  | .auto b post n => k (.auto b post n) r
  | .acc b o => k (.acc b o) r
  | .off9 b sign => withByte (fun ff => k (.off9 b (BitVec.ofBool sign ++ ff))) r
  | .off16 b => withWord (fun w => k (.off16 b w)) r
  | .indD b => k (.indD b) r
  | .ind16 b => withWord (fun w => k (.ind16 b w)) r

theorem withIdx_cons (k : Idx → List Byte → Parse) (p : Byte) (r : List Byte) :
    withIdx k (p :: r) = (splitXb p).read k r := rfl

theorem byte_splitXb : ∀ p : Byte, (splitXb p).byte = p := by decide +kernel

theorem splitXb_byte (q : IdxPost) : splitXb q.byte = q := by
  cases q with
  | off5 r n => cases r <;> decide +revert
  | auto r post n => cases r <;> decide +revert
  | acc r o => cases r <;> cases o <;> rfl
  | off9 r sign => cases r <;> cases sign <;> rfl
  | off16 r | indD r | ind16 r => cases r <;> rfl

/-! ### A 9-bit offset is a sign bit in the postbyte and a byte (R90, R96) -/

theorem sign_append_byte (n : BitVec 9) : BitVec.ofBool n.msb ++ n.extractLsb' 0 8 = n := by
  decide +revert

theorem extract_sign_eq_msb (n : BitVec 9) : n.extractLsb' 8 1 = BitVec.ofBool n.msb := by
  decide +revert

theorem msb_sign_append (s : Bool) (ff : Byte) : (BitVec.ofBool s ++ ff).msb = s := by
  cases s <;> decide +revert

theorem byte_of_sign_append (s : Bool) (ff : Byte) : (BitVec.ofBool s ++ ff).extractLsb' 0 8 = ff := by
  cases s <;> decide +revert

/-! ### The postbytes `eb` and `lb` (R102, R103) -/

/-- The postbyte `eb`: the second byte `encTransfer` writes. -/
def ebByte (q : Bool × XReg × XReg) : Byte := BitVec.ofBool q.1 ++ q.2.1.code ++ 0#1 ++ q.2.2.code

theorem ebByte_fields : ∀ (e : Bool) (c d : BitVec 3),
    (BitVec.ofBool e ++ c ++ 0#1 ++ d : Byte).getLsbD 3 = false ∧
    (BitVec.ofBool e ++ c ++ 0#1 ++ d : Byte).getLsbD 7 = e ∧
    (BitVec.ofBool e ++ c ++ 0#1 ++ d : Byte).extractLsb' 4 3 = c ∧
    (BitVec.ofBool e ++ c ++ 0#1 ++ d : Byte).extractLsb' 0 3 = d := by
  decide +kernel

theorem splitEb_ebByte (e : Bool) (r1 r2 : XReg) : splitEb (ebByte (e, r1, r2)) = some (e, r1, r2) := by
  obtain ⟨reserved, exchange, first, second⟩ := ebByte_fields e r1.code r2.code
  simp only [splitEb, ebByte, reserved, exchange, first, second, xregOf_code, Bool.false_eq_true, if_false]

theorem ebByte_of_splitEb : ∀ p : Byte, ∀ q ∈ splitEb p, ebByte q = p := by decide +kernel

/-- The codes of R103 in bits 7:5. -/
def LoopOp.code : LoopOp → BitVec 3
  | .dbeq => 0b000
  | .dbne => 0b001
  | .tbeq => 0b010
  | .tbne => 0b011
  | .ibeq => 0b100
  | .ibne => 0b101

@[simp] theorem loopOpOf_code (o : LoopOp) : loopOpOf o.code = some o := by cases o <;> rfl

/-- The postbyte `lb`: the second byte `encLoop` writes. -/
def lbByte (q : LoopOp × Bool × Cntr) : Byte := q.1.code ++ BitVec.ofBool q.2.1 ++ 0#1 ++ q.2.2.code

theorem lbByte_fields : ∀ (s : Bool) (c d : BitVec 3),
    (c ++ BitVec.ofBool s ++ 0#1 ++ d : Byte).getLsbD 3 = false ∧
    (c ++ BitVec.ofBool s ++ 0#1 ++ d : Byte).getLsbD 4 = s ∧
    (c ++ BitVec.ofBool s ++ 0#1 ++ d : Byte).extractLsb' 5 3 = c ∧
    (c ++ BitVec.ofBool s ++ 0#1 ++ d : Byte).extractLsb' 0 3 = d := by
  decide +kernel

theorem splitLb_lbByte (o : LoopOp) (s : Bool) (c : Cntr) : splitLb (lbByte (o, s, c)) = some (o, s, c) := by
  obtain ⟨reserved, sign, op, counter⟩ := lbByte_fields s o.code c.code
  simp only [splitLb, lbByte, reserved, sign, op, counter, loopOpOf_code, cntrOf_code, Bool.false_eq_true, if_false]

theorem lbByte_of_splitLb : ∀ p : Byte, ∀ q ∈ splitLb p, lbByte q = p := by decide +kernel

/-- The loop primitive an operation stands for. -/
def LoopOp.instr (o : LoopOp) (c : Cntr) (off : BitVec 9) : Instr :=
  match o with
  | .dbeq => .dbeq c off
  | .dbne => .dbne c off
  | .tbeq => .tbeq c off
  | .tbne => .tbne c off
  | .ibeq => .ibeq c off
  | .ibne => .ibne c off

theorem encLoop_eq (o : LoopOp) (c : Cntr) (off : BitVec 9) :
    encLoop o.code c off = [0x04#8, lbByte (o, off.msb, c), off.extractLsb' 0 8] := by
  rw [encLoop, extract_sign_eq_msb]
  rfl

theorem encode_loop (o : LoopOp) (c : Cntr) (off : BitVec 9) : encode (o.instr c off) = encLoop o.code c off := by
  cases o <;> rfl

theorem parseLoop_cons (lb rr : Byte) (r : List Byte) :
    parseLoop (lb :: rr :: r) = (splitLb lb).elim (.error .reservedLoop) fun q =>
      done (q.1.instr q.2.2 (BitVec.ofBool q.2.1 ++ rr)) r := by
  rw [parseLoop]
  rcases splitLb lb with _ | ⟨o, s, c⟩
  · rfl
  · cases o <;> rfl

/-! ### The rows without an indirect mode (R101) -/

theorem not_isIndirect_iff {i : Idx} : (!i.isIndirect) = true ↔ i.isIndirect = false := by simp

end Sys2Proof
end

section
/-! PROOFS. Decoding what the encoder writes: what each operand reader answers on its own encoding, each operand behind its
opcode, then the round trip over the instructions. -/

namespace Sys2Proof

/-! ### Operand readers on encoded operands -/

section Readers

variable (r : List Byte)

theorem withWord_encWord (k : Word → List Byte → Parse) (w : Word) : withWord k (encWord w ++ r) = k w r := by
  simp [encWord, withWord]

theorem withIdx_byte (k : Idx → List Byte → Parse) (q : IdxPost) : withIdx k (q.byte :: r) = q.read k r := by
  rw [withIdx_cons, splitXb_byte]

theorem withIdx_encIdx (k : Idx → List Byte → Parse) (i : Idx) : withIdx k (encIdx i ++ r) = k i r := by
  cases i with
  | off5 b n => exact withIdx_byte r k (.off5 b n)
  | auto b post n => exact withIdx_byte r k (.auto b post n)
  | acc b o => exact withIdx_byte r k (.acc b o)
  | indD b => exact withIdx_byte r k (.indD b)
  | off9 b n =>
    calc withIdx k (encIdx (.off9 b n) ++ r)
      _ = withIdx k ((IdxPost.off9 b n.msb).byte :: n.extractLsb' 0 8 :: r) := by
        rw [encIdx, extract_sign_eq_msb]
        rfl
      _ = k (.off9 b (BitVec.ofBool n.msb ++ n.extractLsb' 0 8)) r := withIdx_byte _ k (.off9 b n.msb)
      _ = k (.off9 b n) r := by rw [sign_append_byte]
  | off16 b n => exact (withIdx_byte _ k (.off16 b)).trans (withWord_encWord r (fun w => k (.off16 b w)) n)
  | ind16 b n => exact (withIdx_byte _ k (.ind16 b)).trans (withWord_encWord r (fun w => k (.ind16 b w)) n)

theorem withShort_encIdx (k : Idx → List Byte → Parse) {i : Idx} (h : i.isShort = true) :
    withShort k (encIdx i ++ r) = k i r := by
  rw [withShort, withIdx_encIdx, if_pos h]

theorem withDirect_encIdx (k : Idx → List Byte → Parse) {i : Idx} (h : i.isIndirect = false) :
    withDirect k (encIdx i ++ r) = k i r := by
  rw [withDirect, withIdx_encIdx, h]
  rfl

end Readers

/-! ### An operand behind the opcode of its mode

The hypotheses say what the decoder does after each opcode; at the opcodes of a row they hold by evaluation. -/

section Rows

variable {p d x e : Byte} (r : List Byte)

theorem decode_word {f : Word → Instr} (w : Word)
    (h : ∀ bs, decode (p :: d :: bs) = withWord (fun w => done (f w)) bs := by exact fun _ => rfl) :
    decode ([p, d] ++ encWord w ++ r) = done (f w) r :=
  (h _).trans (withWord_encWord r _ w)

theorem decode_idx {f : Idx → Instr} (i : Idx)
    (h : ∀ bs, decode (p :: d :: bs) = withIdx (fun i => done (f i)) bs := by exact fun _ => rfl) :
    decode ([p, d] ++ encIdx i ++ r) = done (f i) r :=
  (h _).trans (withIdx_encIdx r _ i)

theorem decode_short {f : Idx → Instr} {i : Idx} (short : i.isShort = true)
    (h : ∀ bs, decode (p :: d :: bs) = withShort (fun i => done (f i)) bs := by exact fun _ => rfl) :
    decode ([p, d] ++ encIdx i ++ r) = done (f i) r :=
  (h _).trans (withShort_encIdx r _ short)

theorem decode_direct {f : Idx → Instr} {i : Idx} (direct : i.isIndirect = false)
    (h : ∀ bs, decode (p :: bs) = withDirect (fun i => done (f i)) bs := by exact fun _ => rfl) :
    decode (p :: encIdx i ++ r) = done (f i) r :=
  (h _).trans (withDirect_encIdx r _ direct)

theorem decode_encAddr {f : Addr → Instr} (m : Addr)
    (hd : ∀ bs, decode (d :: bs) = withDir (fun a => done (f a)) bs := by exact fun _ => rfl)
    (hx : ∀ bs, decode (x :: bs) = withAny (fun a => done (f a)) bs := by exact fun _ => rfl)
    (he : ∀ bs, decode (e :: bs) = withExt (fun a => done (f a)) bs := by exact fun _ => rfl) :
    decode (encAddr d x e m ++ r) = done (f m) r := by
  cases m with
  | dir dd => exact hd _
  | idx i => exact (hx _).trans (withIdx_encIdx r _ i)
  | ext a => exact (he _).trans (withWord_encWord r _ a)

/-- The rows without an indirect mode, whose address other bytes follow. -/
theorem decode_masked (k : Addr → List Byte → Parse) {m : Addr} (h : m.noIndirect = true)
    (l : List Byte)
    (hd : ∀ bs, decode (d :: bs) = withDir k bs := by exact fun _ => rfl)
    (hx : ∀ bs, decode (x :: bs) = withDirect (fun i => k (.idx i)) bs := by exact fun _ => rfl)
    (he : ∀ bs, decode (e :: bs) = withExt k bs := by exact fun _ => rfl) :
    decode (encAddr d x e m ++ l ++ r) = k m (l ++ r) := by
  rw [List.append_assoc]
  cases m with
  | dir dd => exact hd _
  | idx i =>
    have direct : i.isIndirect = false := not_isIndirect_iff.1 h
    exact (hx _).trans (withDirect_encIdx _ _ direct)
  | ext a => exact (he _).trans (withWord_encWord _ _ a)

theorem decode_encNoDir {f : Addr → Instr} {m : Addr} (h : m.noDir = true)
    (hx : ∀ bs, decode (x :: bs) = withAny (fun a => done (f a)) bs := by exact fun _ => rfl)
    (he : ∀ bs, decode (e :: bs) = withExt (fun a => done (f a)) bs := by exact fun _ => rfl) :
    decode (encNoDir x e m ++ r) = done (f m) r := by
  cases m with
  | dir dd => cases h
  | idx i => exact (hx _).trans (withIdx_encIdx r _ i)
  | ext a => exact (he _).trans (withWord_encWord r _ a)

theorem decode_encSrc8 {f : Src8 → Instr} (o : Src8)
    (hp : ∀ bs, decode (p :: bs) = withSrc8 .imm (fun o => done (f o)) bs := by exact fun _ => rfl)
    (hd : ∀ bs, decode (d :: bs) = withSrc8 .dir (fun o => done (f o)) bs := by exact fun _ => rfl)
    (hx : ∀ bs, decode (x :: bs) = withSrc8 .idx (fun o => done (f o)) bs := by exact fun _ => rfl)
    (he : ∀ bs, decode (e :: bs) = withSrc8 .ext (fun o => done (f o)) bs := by exact fun _ => rfl) :
    decode (encSrc8 p d x e o ++ r) = done (f o) r := by
  cases o with
  | imm ii => exact hp _
  | mem m => exact decode_encAddr r (f := fun a => f (.mem a)) m hd hx he

theorem decode_encSrc16 {f : Src16 → Instr} (o : Src16)
    (hp : ∀ bs, decode (p :: bs) = withSrc16 .imm (fun o => done (f o)) bs := by exact fun _ => rfl)
    (hd : ∀ bs, decode (d :: bs) = withSrc16 .dir (fun o => done (f o)) bs := by exact fun _ => rfl)
    (hx : ∀ bs, decode (x :: bs) = withSrc16 .idx (fun o => done (f o)) bs := by exact fun _ => rfl)
    (he : ∀ bs, decode (e :: bs) = withSrc16 .ext (fun o => done (f o)) bs := by exact fun _ => rfl) :
    decode (encSrc16 p d x e o ++ r) = done (f o) r := by
  cases o with
  | imm w => exact (hp _).trans (withWord_encWord r (fun w => done (f (.imm w))) w)
  | mem m => exact decode_encAddr r (f := fun a => f (.mem a)) m hd hx he

theorem decode_encTransfer (ex : Bool) (r1 r2 : XReg) :
    decode (encTransfer ex r1 r2 ++ r) = done (if ex then .exg r1 r2 else .tfr r1 r2) r := by
  have parsed : decode (encTransfer ex r1 r2 ++ r) = parseTransfer (ebByte (ex, r1, r2) :: r) := rfl
  rw [parsed, parseTransfer, withByte, splitEb_ebByte]
  cases ex <;> rfl

theorem decode_encLoop (o : LoopOp) (c : Cntr) (off : BitVec 9) :
    decode (encLoop o.code c off ++ r) = done (o.instr c off) r := by
  have parsed (lb rr : Byte) : decode ([0x04#8, lb, rr] ++ r) = parseLoop (lb :: rr :: r) := rfl
  rw [encLoop_eq, parsed, parseLoop_cons, splitLb_lbByte, Option.elim_some, sign_append_byte]

theorem decode_encCall (t : CallTo) (h : t.wf = true) : decode (encCall t ++ r) = done (.call t) r := by
  cases t with
  | ext a pg => exact withWord_encWord ([pg] ++ r) (fun a => withByte fun pg => done (.call (.ext a pg))) a
  | idx i pg =>
    have direct : i.isIndirect = false := not_isIndirect_iff.1 h
    have parsed : decode (encCall (.idx i pg) ++ r) = parseCallIdx (encIdx i ++ ([pg] ++ r)) := by
      rw [← List.append_assoc]
      rfl
    rw [parsed, parseCallIdx, withIdx_encIdx, direct]
    rfl
  | ind i =>
    have indirect : i.isIndirect = true := h
    have parsed : decode (encCall (.ind i) ++ r) = parseCallIdx (encIdx i ++ r) := rfl
    rw [parsed, parseCallIdx, withIdx_encIdx, if_pos indirect]

/-! ### MOVB and MOVW: an operand group, then the other one (48_lost_rows.md R450, R451) -/

theorem decode_short_then (k : Idx → List Byte → Parse) {i : Idx} (short : i.isShort = true) (l : List Byte)
    (h : ∀ bs, decode (p :: d :: bs) = withShort k bs := by exact fun _ => rfl) :
    decode ([p, d] ++ encIdx i ++ l ++ r) = k i (l ++ r) := by
  rw [List.append_assoc]
  exact (h _).trans (withShort_encIdx _ k short)

theorem decode_word_then (k : Word → List Byte → Parse) (w : Word) (l : List Byte)
    (h : ∀ bs, decode (p :: d :: bs) = withWord k bs := by exact fun _ => rfl) :
    decode ([p, d] ++ encWord w ++ l ++ r) = k w (l ++ r) := by
  rw [List.append_assoc]
  exact (h _).trans (withWord_encWord _ k w)

theorem decode_encMovb (src : Src8) (dst : Addr) (h : (Instr.movb src dst).wf = true) :
    decode (encMovb src dst ++ r) = done (.movb src dst) r := by
  obtain ⟨hsrc, hdst⟩ : src.isMove = true ∧ dst.isMove = true := Bool.and_eq_true_iff.1 h
  rcases src with ii | dd | a | i
  · rcases dst with dd | b | j
    · cases hdst
    · exact withWord_encWord r (fun b => done (.movb (.imm ii) (.ext b))) b
    · exact decode_short_then r (fun j => withByte fun ii => done (.movb (.imm ii) (.idx j))) hdst [ii]
  · cases hsrc
  · rcases dst with dd | b | j
    · cases hdst
    · exact (decode_word_then r (fun a => withWord fun b => done (.movb (.mem (.ext a)) (.ext b))) a (encWord b)).trans
        (withWord_encWord r _ b)
    · exact (decode_short_then r (fun j => withWord fun a => done (.movb (.mem (.ext a)) (.idx j))) hdst (encWord a)).trans
        (withWord_encWord r _ a)
  · rcases dst with dd | b | j
    · cases hdst
    · exact (decode_short_then r (fun i => withWord fun b => done (.movb (.mem (.idx i)) (.ext b))) hsrc (encWord b)).trans
        (withWord_encWord r _ b)
    · exact (decode_short_then r (fun i => withShort fun j => done (.movb (.mem (.idx i)) (.idx j))) hsrc (encIdx j)).trans
        (withShort_encIdx r _ hdst)

theorem decode_encMovw (src : Src16) (dst : Addr) (h : (Instr.movw src dst).wf = true) :
    decode (encMovw src dst ++ r) = done (.movw src dst) r := by
  obtain ⟨hsrc, hdst⟩ : src.isMove = true ∧ dst.isMove = true := Bool.and_eq_true_iff.1 h
  rcases src with w | dd | a | i
  · rcases dst with dd | b | j
    · cases hdst
    · exact (decode_word_then r (fun w => withWord fun b => done (.movw (.imm w) (.ext b))) w (encWord b)).trans
        (withWord_encWord r _ b)
    · exact (decode_short_then r (fun j => withWord fun w => done (.movw (.imm w) (.idx j))) hdst (encWord w)).trans
        (withWord_encWord r _ w)
  · cases hsrc
  · rcases dst with dd | b | j
    · cases hdst
    · exact (decode_word_then r (fun a => withWord fun b => done (.movw (.mem (.ext a)) (.ext b))) a (encWord b)).trans
        (withWord_encWord r _ b)
    · exact (decode_short_then r (fun j => withWord fun a => done (.movw (.mem (.ext a)) (.idx j))) hdst (encWord a)).trans
        (withWord_encWord r _ a)
  · rcases dst with dd | b | j
    · cases hdst
    · exact (decode_short_then r (fun i => withWord fun b => done (.movw (.mem (.idx i)) (.ext b))) hsrc (encWord b)).trans
        (withWord_encWord r _ b)
    · exact (decode_short_then r (fun i => withShort fun j => done (.movw (.mem (.idx i)) (.idx j))) hsrc (encIdx j)).trans
        (withShort_encIdx r _ hdst)

end Rows

/-! ### The trap numbers (R106) -/

theorem isTrapNumber_iff (tn : Byte) : isTrapNumber tn = true ↔ (0x30 ≤ tn.toNat ∧ tn.toNat ≤ 0x39) ∨ 0x40 ≤ tn.toNat := by
  simp [isTrapNumber, BitVec.le_def]

theorem decode_trap (r : List Byte) {tn : Byte} (h : isTrapNumber tn = true) :
    decode ([0x18#8, tn] ++ r) = done (.trap tn) r := by
  have parsed : decode ([0x18#8, tn] ++ r) = decodePage2 (tn :: r) := rfl
  rw [isTrapNumber_iff] at h
  have high : 3 ≤ tn.toNat / 16 := by omega
  have low : tn.toNat / 16 = 3 → tn.toNat % 16 < 10 := by omega
  rw [parsed, decodePage2]
  generalize tn.toNat / 16 = hi at high low ⊢
  generalize tn.toNat % 16 = lo at low ⊢
  split
  case h_10 => rfl
  all_goals omega

/-! ### The round trip -/

theorem decode_encode (i : Instr) (r : List Byte) (h : i.wf = true) : decode (encode i ++ r) = done i.core r := by
  cases i with
  | emacs w | lbra w | lbrn w | lbhi w | lbls w | lbcc w | lbcs w | lbne w | lbeq w | lbvc w | lbvs w | lbpl w | lbmi w
  | lbge w | lblt w | lbgt w | lble w | lbhs w | lblo w => exact decode_word r w
  | suba o | subb o | cmpa o | cmpb o | sbca o | sbcb o | anda o | andb o | bita o | bitb o | ldaa o | ldab o | eora o
  | eorb o | adca o | adcb o | oraa o | orab o | adda o | addb o => exact decode_encSrc8 r o
  | subd o | addd o | cpd o | cpy o | cpx o | cps o | ldd o | ldy o | ldx o | lds o => exact decode_encSrc16 r o
  | staa m | stab m | std m | sty m | stx m | sts m | jsr m => exact decode_encAddr r m
  | neg m | com m | inc m | dec m | lsr m | rol m | ror m | asr m | lsl m | asl m | clr m | tst m | jmp m =>
    exact decode_encNoDir r h
  | bset m mm => exact decode_masked r (withMask .bset) h [mm]
  | bclr m mm => exact decode_masked r (withMask .bclr) h [mm]
  | brset m mm rr => exact decode_masked r (withMaskRel .brset) h [mm, rr]
  | brclr m mm rr => exact decode_masked r (withMaskRel .brclr) h [mm, rr]
  | leax i | leay i | leas i => exact decode_direct r (not_isIndirect_iff.1 h)
  | emaxd i | emaxm i | emind i | eminm i | maxa i | maxm i | mina i | minm i => exact decode_idx r i
  | etbl i | tbl i => exact decode_short r h
  | exg r1 r2 | tfr r1 r2 | sex r1 r2 => exact decode_encTransfer ..
  | ibeq c off => exact decode_encLoop r .ibeq c off
  | ibne c off => exact decode_encLoop r .ibne c off
  | dbeq c off => exact decode_encLoop r .dbeq c off
  | dbne c off => exact decode_encLoop r .dbne c off
  | tbeq c off => exact decode_encLoop r .tbeq c off
  | tbne c off => exact decode_encLoop r .tbne c off
  | call t => exact decode_encCall r t h
  | movb src dst => exact decode_encMovb r src dst h
  | movw src dst => exact decode_encMovw r src dst h
  | trap tn => exact decode_trap r h
  -- a fixed number of bytes, on which the decoder computes
  | _ => rfl

/-- Settles O1: by the constructors, each through the lemma of its operand form. -/
theorem decodeEncode : Obligations.DecodeEncode := fun i rest h => decode_encode i rest h

end Sys2Proof
end

section
/-! PROOFS. What decodes is well formed and re-encodes to the bytes taken: a parser that has taken the bytes `pre` goes on to
invert the encoder; the operand readers keep that, and the rows of the opcode tables are made of them. -/

namespace Sys2Proof

/-- The parser `p` goes on after the bytes `pre` to an instruction that is well formed and whose encoding is `pre` and the bytes
`p` takes. -/
structure Inverts (pre : List Byte) (p : List Byte → Parse) : Prop where
  of_ok : ∀ bs i rest, p bs = .ok (i, rest) → i.wf = true ∧ encode i ++ rest = pre ++ bs

section Readers

variable {pre : List Byte}

theorem inverts_done {i : Instr} (hwf : i.wf = true := by exact rfl) (henc : encode i = pre := by exact rfl) :
    Inverts pre (done i) := by
  refine ⟨fun bs j rest h => ?_⟩
  cases h
  exact ⟨hwf, by rw [henc]⟩

theorem inverts_error (e : DecodeError) : Inverts pre (fun _ => .error e) := ⟨fun _ _ _ h => by cases h⟩

theorem inverts_withByte {k : Byte → List Byte → Parse} (h : ∀ b, Inverts (pre ++ [b]) (k b)) :
    Inverts pre (withByte k) := by
  refine ⟨fun bs i rest hk => ?_⟩
  cases bs with
  | nil => cases hk
  | cons b bs => simpa using (h b).of_ok bs i rest hk

theorem inverts_withWord {k : Word → List Byte → Parse} (h : ∀ w, Inverts (pre ++ encWord w) (k w)) :
    Inverts pre (withWord k) := by
  refine ⟨fun bs i rest hk => ?_⟩
  match bs with
  | [] | [_] => cases hk
  | b :: c :: bs => simpa [encWord] using (h (joinBytes b c)).of_ok bs i rest hk

theorem inverts_withIdx {k : Idx → List Byte → Parse} (h : ∀ i, Inverts (pre ++ encIdx i) (k i)) :
    Inverts pre (withIdx k) := by
  have read (q : IdxPost) : Inverts (pre ++ [q.byte]) (fun r => q.read k r) := by
    cases q with
    | off5 b n => exact h (.off5 b n)
    | auto b p n => exact h (.auto b p n)
    | acc b o => exact h (.acc b o)
    | indD b => exact h (.indD b)
    | off9 b sign =>
      refine inverts_withByte fun ff => ?_
      have bytes : encIdx (.off9 b (BitVec.ofBool sign ++ ff)) = [(IdxPost.off9 b sign).byte, ff] := by
        rw [encIdx, extract_sign_eq_msb, msb_sign_append, byte_of_sign_append]
        rfl
      simpa [bytes] using h (.off9 b (BitVec.ofBool sign ++ ff))
    | off16 b =>
      refine inverts_withWord (k := fun w => k (.off16 b w)) fun w => ?_
      rw [List.append_assoc]
      exact h (.off16 b w)
    | ind16 b =>
      refine inverts_withWord (k := fun w => k (.ind16 b w)) fun w => ?_
      rw [List.append_assoc]
      exact h (.ind16 b w)
  refine ⟨fun bs i rest hk => ?_⟩
  cases bs with
  | nil => cases hk
  | cons p bs =>
    rw [withIdx_cons] at hk
    simpa [byte_splitXb] using (read (splitXb p)).of_ok bs i rest hk

theorem inverts_withShort {k : Idx → List Byte → Parse} (h : ∀ i, i.isShort = true → Inverts (pre ++ encIdx i) (k i)) :
    Inverts pre (withShort k) := by
  refine inverts_withIdx fun i => ?_
  cases short : i.isShort
  · exact inverts_error _
  · exact h i short

theorem inverts_withDirect {k : Idx → List Byte → Parse}
    (h : ∀ i, i.isIndirect = false → Inverts (pre ++ encIdx i) (k i)) : Inverts pre (withDirect k) := by
  refine inverts_withIdx fun i => ?_
  cases direct : i.isIndirect
  · exact h i direct
  · exact inverts_error _

theorem inverts_withMask {k : Addr → Byte → Instr} {a : Addr} (hwf : ∀ mm, (k a mm).wf = true)
    (henc : ∀ mm, encode (k a mm) = pre ++ [mm]) : Inverts pre (withMask k a) :=
  inverts_withByte fun mm => inverts_done (hwf mm) (henc mm)

theorem inverts_withMaskRel {k : Addr → Byte → Byte → Instr} {a : Addr} (hwf : ∀ mm rr, (k a mm rr).wf = true)
    (henc : ∀ mm rr, encode (k a mm rr) = pre ++ [mm, rr]) : Inverts pre (withMaskRel k a) := by
  refine inverts_withByte fun mm => inverts_withByte fun rr => inverts_done (hwf mm rr) ?_
  rw [henc, List.append_assoc]
  rfl

end Readers

/-! ### Rows of the opcode tables -/

/-- The byte of two nibbles, by which the decoder is laid out. -/
def byteOf (hi lo : Nat) : Byte := BitVec.ofNat 8 (16 * hi + lo)

theorem byteOf_nibbles (b : Byte) : byteOf (b.toNat / 16) (b.toNat % 16) = b := by
  rw [byteOf, Nat.div_add_mod, BitVec.ofNat_toNat, BitVec.setWidth_eq]

/-- The opcode of a mode in an accumulator group whose immediate row is `g` (41_logic_compare_clear.md R160). -/
def Mode.opcode (g lo : Nat) : Mode → Byte
  | .imm => byteOf g lo
  | .dir => byteOf (g + 1) lo
  | .idx => byteOf (g + 2) lo
  | .ext => byteOf (g + 3) lo

theorem inverts_withSrc8 {f : Src8 → Instr} {g lo : Nat} (m : Mode) (hwf : ∀ o, (f o).wf = true)
    (henc : ∀ o, encode (f o) =
      encSrc8 (Mode.imm.opcode g lo) (Mode.dir.opcode g lo) (Mode.idx.opcode g lo) (Mode.ext.opcode g lo) o) :
    Inverts [m.opcode g lo] (withSrc8 m fun o => done (f o)) := by
  cases m with
  | imm => exact inverts_withByte fun ii => inverts_done (hwf _) (henc (.imm ii))
  | dir => exact inverts_withByte fun dd => inverts_done (hwf _) (henc (.mem (.dir dd)))
  | idx => exact inverts_withIdx fun i => inverts_done (i := f (.mem (.idx i))) (hwf _) (henc (.mem (.idx i)))
  | ext => exact inverts_withWord fun a => inverts_done (i := f (.mem (.ext a))) (hwf _) (henc (.mem (.ext a)))

theorem inverts_withSrc16 {f : Src16 → Instr} {g lo : Nat} (m : Mode) (hwf : ∀ o, (f o).wf = true)
    (henc : ∀ o, encode (f o) =
      encSrc16 (Mode.imm.opcode g lo) (Mode.dir.opcode g lo) (Mode.idx.opcode g lo) (Mode.ext.opcode g lo) o) :
    Inverts [m.opcode g lo] (withSrc16 m fun o => done (f o)) := by
  cases m with
  | imm => exact inverts_withWord fun w => inverts_done (hwf _) (henc (.imm w))
  | dir => exact inverts_withByte fun dd => inverts_done (hwf _) (henc (.mem (.dir dd)))
  | idx => exact inverts_withIdx fun i => inverts_done (i := f (.mem (.idx i))) (hwf _) (henc (.mem (.idx i)))
  | ext => exact inverts_withWord fun a => inverts_done (i := f (.mem (.ext a))) (hwf _) (henc (.mem (.ext a)))

theorem parseTransfer_inverts : Inverts [0xB7#8] parseTransfer := by
  refine inverts_withByte fun eb => ?_
  cases h : splitEb eb with
  | none => exact inverts_error _
  | some q =>
    obtain ⟨ex, r1, r2⟩ := q
    have byte : ebByte (ex, r1, r2) = eb := ebByte_of_splitEb eb _ h
    subst byte
    cases ex with
    | true => exact inverts_done rfl rfl
    | false => exact inverts_done rfl rfl

theorem LoopOp.wf_instr (o : LoopOp) (c : Cntr) (off : BitVec 9) : (o.instr c off).wf = true := by cases o <;> rfl

theorem parseLoop_inverts : Inverts [0x04#8] parseLoop := by
  refine ⟨fun bs i rest h => ?_⟩
  match bs with
  | [] | [_] => cases h
  | lb :: rr :: bs =>
    rw [parseLoop_cons] at h
    cases split : splitLb lb with
    | none =>
      rw [split] at h
      cases h
    | some q =>
      obtain ⟨o, s, c⟩ := q
      rw [split] at h
      cases h
      refine ⟨o.wf_instr c _, ?_⟩
      rw [encode_loop, encLoop_eq, msb_sign_append, byte_of_sign_append, lbByte_of_splitLb lb _ split]
      rfl

theorem parseCallIdx_inverts : Inverts [0x4B#8] parseCallIdx := by
  refine inverts_withIdx fun i => ?_
  cases indirect : i.isIndirect with
  | true => exact inverts_done indirect rfl
  | false =>
    exact inverts_withByte fun pg => inverts_done (not_isIndirect_iff.2 indirect)

section Page2

variable {lo : Nat}

theorem page2Row0_inverts (h : lo < 16) : Inverts [0x18#8, byteOf 0x0 lo] (page2Row0 lo) := by
  unfold page2Row0
  match lo, h with
  | 0x0, _ | 0x1, _ | 0x9, _ =>
    exact inverts_withShort fun i short => inverts_withWord fun w => inverts_done short
  | 0x8, _ =>
    exact inverts_withShort fun i short => inverts_withByte fun ii => inverts_done short
  | 0x2, _ | 0xA, _ =>
    exact inverts_withShort fun i srcShort => inverts_withShort fun j dstShort =>
      inverts_done (Bool.and_eq_true_iff.2 ⟨srcShort, dstShort⟩)
  | 0x3, _ | 0x4, _ | 0xC, _ =>
    exact inverts_withWord fun w => inverts_withWord fun b => inverts_done
  | 0xB, _ =>
    exact inverts_withByte fun ii => inverts_withWord fun b => inverts_done
  | 0x5, _ | 0xD, _ =>
    exact inverts_withShort fun i short => inverts_withWord fun b =>
      inverts_done (Bool.and_eq_true_iff.2 ⟨short, rfl⟩)
  | 0x6, _ | 0x7, _ | 0xE, _ | 0xF, _ => exact inverts_done
  | _ + 16, _ => omega

theorem page2Row1_inverts (h : lo < 16) : Inverts [0x18#8, byteOf 0x1 lo] (page2Row1 lo) := by
  unfold page2Row1
  match lo, h with
  | 0x0, _ | 0x1, _ | 0x3, _ | 0x4, _ | 0x5, _ | 0x6, _ | 0x7, _ => exact inverts_done
  | 0x2, _ =>
    exact inverts_withWord fun a => inverts_done
  | 0x8, _ | 0x9, _ | 0xA, _ | 0xB, _ | 0xC, _ | 0xD, _ | 0xE, _ | 0xF, _ => exact inverts_withIdx fun i => inverts_done
  | _ + 16, _ => omega

theorem page2Row2_inverts (h : lo < 16) : Inverts [0x18#8, byteOf 0x2 lo] (page2Row2 lo) := by
  unfold page2Row2
  match lo, h with
  | 0x0, _ | 0x1, _ | 0x2, _ | 0x3, _ | 0x4, _ | 0x5, _ | 0x6, _ | 0x7, _ | 0x8, _ | 0x9, _ | 0xA, _ | 0xB, _ | 0xC, _
  | 0xD, _ | 0xE, _ | 0xF, _ =>
    exact inverts_withWord fun w => inverts_done
  | _ + 16, _ => omega

end Page2

theorem decodePage2_inverts : Inverts [0x18#8] decodePage2 := by
  refine ⟨fun bs i rest hd => ?_⟩
  cases bs with
  | nil => cases hd
  | cons op bs =>
    have hlo : op.toNat % 16 < 16 := Nat.mod_lt _ (by decide)
    have hop : byteOf (op.toNat / 16) (op.toNat % 16) = op := byteOf_nibbles op
    have htrap : op.toNat / 16 = 3 ∧ op.toNat % 16 < 10 ∨ 4 ≤ op.toNat / 16 → isTrapNumber op = true := by
      rw [isTrapNumber_iff]
      omega
    simp only [decodePage2] at hd
    generalize op.toNat / 16 = hi at hop htrap hd
    generalize op.toNat % 16 = lo at hlo hop htrap hd
    subst hop
    match hi, lo, hlo with
    | 0x0, lo, hlo => exact (page2Row0_inverts hlo).of_ok bs i rest hd
    | 0x1, lo, hlo => exact (page2Row1_inverts hlo).of_ok bs i rest hd
    | 0x2, lo, hlo => exact (page2Row2_inverts hlo).of_ok bs i rest hd
    | 0x3, 0x0, _ | 0x3, 0x1, _ | 0x3, 0x2, _ | 0x3, 0x3, _ | 0x3, 0x4, _ | 0x3, 0x5, _ | 0x3, 0x6, _ | 0x3, 0x7, _
    | 0x3, 0x8, _ | 0x3, 0x9, _ =>
      cases hd
      exact ⟨htrap (by decide), rfl⟩
    | 0x3, 0xA, _ | 0x3, 0xB, _ | 0x3, 0xC, _ | 0x3, 0xE, _ =>
      cases hd
      exact ⟨rfl, rfl⟩
    | 0x3, 0xD, _ =>
      have row : Inverts [0x18#8, byteOf 0x3 0xD] (withShort fun j => done (.tbl j)) :=
        inverts_withShort fun j short => inverts_done short
      exact row.of_ok bs i rest hd
    | 0x3, 0xF, _ =>
      have row : Inverts [0x18#8, byteOf 0x3 0xF] (withShort fun j => done (.etbl j)) :=
        inverts_withShort fun j short => inverts_done short
      exact row.of_ok bs i rest hd
    | 0x3, _ + 16, _ => omega
    | hi + 4, lo, _ =>
      cases hd
      exact ⟨htrap (.inr (Nat.le_add_left 4 hi)), rfl⟩

section Page1

variable {lo : Nat}

theorem page1Row0_inverts (h : lo < 16) : Inverts [byteOf 0x0 lo] (page1Row0 lo) := by
  unfold page1Row0
  match lo, h with
  | 0x0, _ | 0x1, _ | 0x2, _ | 0x3, _ | 0x8, _ | 0x9, _ | 0xA, _ | 0xB, _ => exact inverts_done
  | 0x4, _ => exact parseLoop_inverts
  | 0x5, _ => exact inverts_withIdx fun i => inverts_done
  | 0x6, _ => exact inverts_withWord fun a => inverts_done
  | 0x7, _ => exact inverts_withByte fun rr => inverts_done
  | 0xC, _ | 0xD, _ =>
    exact inverts_withDirect fun i direct => inverts_withMask (fun mm => not_isIndirect_iff.2 direct) (fun mm => rfl)
  | 0xE, _ | 0xF, _ =>
    exact inverts_withDirect fun i direct => inverts_withMaskRel (fun mm rr => not_isIndirect_iff.2 direct) (fun mm rr => rfl)
  | _ + 16, _ => omega

theorem page1Row1_inverts (h : lo < 16) : Inverts [byteOf 0x1 lo] (page1Row1 lo) := by
  unfold page1Row1
  match lo, h with
  | 0x0, _ | 0x4, _ => exact inverts_withByte fun ii => inverts_done
  | 0x1, _ | 0x2, _ | 0x3, _ => exact inverts_done
  | 0x5, _ => exact inverts_withIdx fun i => inverts_done
  | 0x6, _ => exact inverts_withWord fun a => inverts_done
  | 0x7, _ => exact inverts_withByte fun dd => inverts_done
  | 0x8, _ => exact decodePage2_inverts
  | 0x9, _ | 0xA, _ | 0xB, _ => exact inverts_withDirect fun i direct => inverts_done (not_isIndirect_iff.2 direct)
  | 0xC, _ | 0xD, _ => exact inverts_withWord fun a => inverts_withMask (fun mm => rfl) (fun mm => rfl)
  | 0xE, _ | 0xF, _ => exact inverts_withWord fun a => inverts_withMaskRel (fun mm rr => rfl) (fun mm rr => rfl)
  | _ + 16, _ => omega

theorem page1Row2_inverts (h : lo < 16) : Inverts [byteOf 0x2 lo] (page1Row2 lo) := by
  unfold page1Row2
  match lo, h with
  | 0x0, _ | 0x1, _ | 0x2, _ | 0x3, _ | 0x4, _ | 0x5, _ | 0x6, _ | 0x7, _ | 0x8, _ | 0x9, _ | 0xA, _ | 0xB, _ | 0xC, _
  | 0xD, _ | 0xE, _ | 0xF, _ => exact inverts_withByte fun rr => inverts_done
  | _ + 16, _ => omega

theorem page1Row3_inverts (h : lo < 16) : Inverts [byteOf 0x3 lo] (page1Row3 lo) := by
  unfold page1Row3
  match lo, h with
  | 0x0, _ | 0x1, _ | 0x2, _ | 0x3, _ | 0x4, _ | 0x5, _ | 0x6, _ | 0x7, _ | 0x8, _ | 0x9, _ | 0xA, _ | 0xB, _ | 0xC, _
  | 0xD, _ | 0xE, _ | 0xF, _ => exact inverts_done
  | _ + 16, _ => omega

theorem page1Row4_inverts (h : lo < 16) : Inverts [byteOf 0x4 lo] (page1Row4 lo) := by
  unfold page1Row4
  match lo, h with
  | 0x0, _ | 0x1, _ | 0x2, _ | 0x3, _ | 0x4, _ | 0x5, _ | 0x6, _ | 0x7, _ | 0x8, _ | 0x9, _ => exact inverts_done
  | 0xA, _ => exact inverts_withWord fun a => inverts_withByte fun pg => inverts_done
  | 0xB, _ => exact parseCallIdx_inverts
  | 0xC, _ | 0xD, _ => exact inverts_withByte fun dd => inverts_withMask (fun mm => rfl) (fun mm => rfl)
  | 0xE, _ | 0xF, _ => exact inverts_withByte fun dd => inverts_withMaskRel (fun mm rr => rfl) (fun mm rr => rfl)
  | _ + 16, _ => omega

theorem page1Row5_inverts (h : lo < 16) : Inverts [byteOf 0x5 lo] (page1Row5 lo) := by
  unfold page1Row5
  match lo, h with
  | 0x0, _ | 0x1, _ | 0x2, _ | 0x3, _ | 0x4, _ | 0x5, _ | 0x6, _ | 0x7, _ | 0x8, _ | 0x9, _ => exact inverts_done
  | 0xA, _ | 0xB, _ | 0xC, _ | 0xD, _ | 0xE, _ | 0xF, _ => exact inverts_withByte fun dd => inverts_done
  | _ + 16, _ => omega

theorem encAddr_eq_encNoDir {d x e : Byte} {m : Addr} (h : m.noDir = true) : encAddr d x e m = encNoDir x e m := by
  cases m with
  | dir dd => cases h
  | idx i => rfl
  | ext a => rfl

/-- Rows `6x` and `7x`, whose operand has no DIR form. -/
theorem memoryRow_inverts (h : lo < 16) {a : Addr} (noDir : a.noDir = true) :
    Inverts (encNoDir (byteOf 0x6 lo) (byteOf 0x7 lo) a) (memoryRow lo a) := by
  unfold memoryRow
  match lo, h with
  | 0x0, _ | 0x1, _ | 0x2, _ | 0x3, _ | 0x4, _ | 0x5, _ | 0x6, _ | 0x7, _ | 0x8, _ | 0x9, _ => exact inverts_done noDir
  | 0xA, _ | 0xB, _ | 0xC, _ | 0xD, _ | 0xE, _ | 0xF, _ => exact inverts_done rfl (encAddr_eq_encNoDir noDir)
  | _ + 16, _ => omega

theorem groupA_inverts (h : lo < 16) (m : Mode) : Inverts [m.opcode 0x8 lo] (groupA m lo) := by
  unfold groupA
  match lo, h with
  | 0x0, _ | 0x1, _ | 0x2, _ | 0x4, _ | 0x5, _ | 0x6, _ | 0x8, _ | 0x9, _ | 0xA, _ | 0xB, _ =>
    exact inverts_withSrc8 m (fun _ => rfl) (fun _ => rfl)
  | 0x3, _ | 0xC, _ | 0xD, _ | 0xE, _ | 0xF, _ => exact inverts_withSrc16 m (fun _ => rfl) (fun _ => rfl)
  | 0x7, _ =>
    cases m with
    | imm | dir | idx => exact inverts_done
    | ext => exact parseTransfer_inverts
  | _ + 16, _ => omega

theorem groupB_inverts (h : lo < 16) (m : Mode) : Inverts [m.opcode 0xC lo] (groupB m lo) := by
  unfold groupB
  match lo, h with
  | 0x0, _ | 0x1, _ | 0x2, _ | 0x4, _ | 0x5, _ | 0x6, _ | 0x8, _ | 0x9, _ | 0xA, _ | 0xB, _ =>
    exact inverts_withSrc8 m (fun _ => rfl) (fun _ => rfl)
  | 0x3, _ | 0xC, _ | 0xD, _ | 0xE, _ | 0xF, _ => exact inverts_withSrc16 m (fun _ => rfl) (fun _ => rfl)
  | 0x7, _ =>
    cases m with
    | imm | dir => exact inverts_done
    | idx => exact inverts_withIdx fun i => inverts_done
    | ext => exact inverts_withWord fun a => inverts_done
  | _ + 16, _ => omega

end Page1

theorem decode_inverts : Inverts [] decode := by
  refine ⟨fun bs i rest hd => ?_⟩
  cases bs with
  | nil => cases hd
  | cons op bs =>
    have hlo : op.toNat % 16 < 16 := Nat.mod_lt _ (by decide)
    have hhi : op.toNat / 16 < 16 := by omega
    have hop : byteOf (op.toNat / 16) (op.toNat % 16) = op := byteOf_nibbles op
    simp only [decode] at hd
    generalize op.toNat / 16 = hi at hhi hop hd
    generalize op.toNat % 16 = lo at hlo hop hd
    subst hop
    match hi, hhi with
    | 0x0, _ => exact (page1Row0_inverts hlo).of_ok bs i rest hd
    | 0x1, _ => exact (page1Row1_inverts hlo).of_ok bs i rest hd
    | 0x2, _ => exact (page1Row2_inverts hlo).of_ok bs i rest hd
    | 0x3, _ => exact (page1Row3_inverts hlo).of_ok bs i rest hd
    | 0x4, _ => exact (page1Row4_inverts hlo).of_ok bs i rest hd
    | 0x5, _ => exact (page1Row5_inverts hlo).of_ok bs i rest hd
    | 0x6, _ =>
      have row : Inverts [byteOf 0x6 lo] (withAny (memoryRow lo)) :=
        inverts_withIdx fun j => memoryRow_inverts hlo (a := .idx j) rfl
      exact row.of_ok bs i rest hd
    | 0x7, _ =>
      have row : Inverts [byteOf 0x7 lo] (withExt (memoryRow lo)) :=
        inverts_withWord fun a => memoryRow_inverts hlo (a := .ext a) rfl
      exact row.of_ok bs i rest hd
    | 0x8, _ => exact (groupA_inverts hlo .imm).of_ok bs i rest hd
    | 0x9, _ => exact (groupA_inverts hlo .dir).of_ok bs i rest hd
    | 0xA, _ => exact (groupA_inverts hlo .idx).of_ok bs i rest hd
    | 0xB, _ => exact (groupA_inverts hlo .ext).of_ok bs i rest hd
    | 0xC, _ => exact (groupB_inverts hlo .imm).of_ok bs i rest hd
    | 0xD, _ => exact (groupB_inverts hlo .dir).of_ok bs i rest hd
    | 0xE, _ => exact (groupB_inverts hlo .idx).of_ok bs i rest hd
    | 0xF, _ => exact (groupB_inverts hlo .ext).of_ok bs i rest hd
    | _ + 16, _ => omega

/-- Settles O2: by the rows of the decoder, each made of readers that keep `Inverts`. -/
theorem encodeDecode : Obligations.EncodeDecode := fun bs rest i h => decode_inverts.of_ok bs i rest h

end Sys2Proof
end

section
/-! PROOFS. The trap encodings and the reserved postbytes (30_encoding.md R102, R103, R106, R111, R112; log 12, 18, 33), and the
words the source prints. -/

namespace Sys2Proof
open Sys2Proof.Machine

/-! ### Codes that name nothing -/

theorem xregOf_eq_none_iff : ∀ c : BitVec 3, xregOf c = none ↔ c.toNat = 3 := by decide

theorem cntrOf_eq_none_iff : ∀ c : BitVec 3, cntrOf c = none ↔ c.toNat = 2 ∨ c.toNat = 3 := by decide

theorem loopOpOf_eq_none_iff : ∀ c : BitVec 3, loopOpOf c = none ↔ 6 ≤ c.toNat := by decide

theorem splitEb_eq_none_iff (p : Byte) :
    splitEb p = none ↔ p.toNat / 8 % 2 = 1 ∨ p.toNat / 16 % 8 = 3 ∨ p.toNat % 8 = 3 := by
  have reserved : p.getLsbD 3 = true ↔ p.toNat / 8 % 2 = 1 := by
    simp only [getLsbD_eq_div_mod, decide_eq_true_eq, Nat.reducePow]
  have first : xregOf (p.extractLsb' 4 3) = none ↔ p.toNat / 16 % 8 = 3 := by
    rw [xregOf_eq_none_iff, BitVec.extractLsb'_toNat, Nat.shiftRight_eq_div_pow]
  have second : xregOf (p.extractLsb' 0 3) = none ↔ p.toNat % 8 = 3 := by
    rw [xregOf_eq_none_iff, BitVec.extractLsb'_toNat, Nat.shiftRight_zero]
  rw [← reserved, ← first, ← second, splitEb]
  cases p.getLsbD 3 <;> cases xregOf (p.extractLsb' 4 3) <;> cases xregOf (p.extractLsb' 0 3) <;> simp

theorem splitLb_eq_none_iff (p : Byte) :
    splitLb p = none ↔ p.toNat / 64 = 3 ∨ p.toNat / 8 % 2 = 1 ∨ p.toNat % 8 = 2 ∨ p.toNat % 8 = 3 := by
  have reserved : p.getLsbD 3 = true ↔ p.toNat / 8 % 2 = 1 := by
    simp only [getLsbD_eq_div_mod, decide_eq_true_eq, Nat.reducePow]
  have operation : loopOpOf (p.extractLsb' 5 3) = none ↔ p.toNat / 64 = 3 := by
    rw [loopOpOf_eq_none_iff, BitVec.extractLsb'_toNat, Nat.shiftRight_eq_div_pow]
    have := p.isLt
    omega
  have counter : cntrOf (p.extractLsb' 0 3) = none ↔ p.toNat % 8 = 2 ∨ p.toNat % 8 = 3 := by
    rw [cntrOf_eq_none_iff, BitVec.extractLsb'_toNat, Nat.shiftRight_zero]
  rw [← reserved, ← operation, ← counter, splitLb]
  cases p.getLsbD 3 <;> cases loopOpOf (p.extractLsb' 5 3) <;> cases cntrOf (p.extractLsb' 0 3) <;> simp

/-! ### Refusals -/

theorem parseTransfer_reserved_iff (eb : Byte) (r : List Byte) :
    parseTransfer (eb :: r) = .error .reservedTransfer ↔ splitEb eb = none := by
  rw [parseTransfer, withByte]
  rcases splitEb eb with _ | ⟨_ | _, r1, r2⟩ <;> simp [done]

theorem parseLoop_reserved_iff (lb rr : Byte) (r : List Byte) :
    parseLoop (lb :: rr :: r) = .error .reservedLoop ↔ splitLb lb = none := by
  rw [parseLoop_cons]
  cases splitLb lb <;> simp [done]

/-- TRAP by the two round trips: the encoding of a trap number decodes to it, and what decodes to TRAP is that encoding. -/
theorem decode_eq_trap_iff (bs rest : List Byte) (tn : Byte) :
    decode bs = .ok (.trap tn, rest) ↔ bs = 0x18#8 :: tn :: rest ∧ isTrapNumber tn = true := by
  constructor
  · intro h
    obtain ⟨hwf, henc⟩ := decode_inverts.of_ok bs (.trap tn) rest h
    exact ⟨henc.symm, hwf⟩
  · rintro ⟨rfl, h⟩
    exact decode_encode (.trap tn) rest h

/-- Settles O4: TRAP by the round trips, the refusals by the codes that name nothing. -/
theorem trapEncodings : Obligations.TrapEncodings := by
  refine ⟨fun bs rest tn => ?_, fun eb rest => ?_, fun lb rr rest => ?_⟩
  · rw [decode_eq_trap_iff, isTrapNumber_iff]
  · rw [← splitEb_eq_none_iff]
    exact parseTransfer_reserved_iff eb rest
  · rw [← splitLb_eq_none_iff]
    exact parseLoop_reserved_iff lb rr rest

/-- Settles O3: the decoder evaluated on each word. -/
theorem decodeWords : Obligations.DecodeWords :=
  ⟨rfl, rfl, rfl, rfl, rfl, rfl, rfl, rfl, rfl, rfl, rfl, rfl, rfl, rfl, rfl, rfl, rfl, rfl, rfl, rfl, rfl, rfl, rfl, rfl,
    rfl⟩

end Sys2Proof
end

section
/-! PROOFS. Every instruction has a next state, and a step stops on undecodable bytes alone (30_encoding.md R112; log 33); an
other name of an instruction has its meaning (R107, R115). -/

namespace Sys2Proof.Machine

/-! ### Answers that are a next state -/

/-- The answer is a next state. -/
def Proceeds (ans : Answer) : Prop := ∃ t, ans = .next t

theorem proceeds_next (t : State) : Proceeds (.next t) := ⟨t, rfl⟩

theorem proceeds_ite {c : Prop} [Decidable c] {p q : Answer} (hp : Proceeds p) (hq : Proceeds q) :
    Proceeds (if c then p else q) := by
  split
  · exact hp
  · exact hq

theorem execDaa_proceeds (s : State) : Proceeds (execDaa s) := by
  unfold execDaa
  dsimp only
  split
  · exact proceeds_next _
  · exact proceeds_next _

theorem wavRun_proceeds (sop : BitVec 32) (sow : Word) (s : State) : Proceeds (wavRun sop sow s) := by
  unfold wavRun
  split
  · exact proceeds_next _
  · exact proceeds_ite (proceeds_next _) (proceeds_ite (proceeds_next _) (proceeds_next _))

/-- By the shape of each meaning: one next state, a choice between next states, or a case split over the operand. -/
theorem exec_proceeds (i : Instr) (s : State) : Proceeds (exec i s) := by
  cases i with
  | call d => cases d <;> exact proceeds_next _
  | movb src | movw src => cases src <;> exact proceeds_next _
  | fdiv | idiv | stop => exact proceeds_ite (proceeds_next _) (proceeds_next _)
  | ediv | edivs | idivs => exact proceeds_ite (proceeds_next _) (proceeds_ite (proceeds_next _) (proceeds_next _))
  | rev =>
    exact proceeds_ite (proceeds_next _) (proceeds_ite (proceeds_next _)
      (proceeds_ite (proceeds_next _) (proceeds_next _)))
  | revw =>
    exact proceeds_ite (proceeds_next _) (proceeds_ite
      (proceeds_ite (proceeds_next _) (proceeds_ite (proceeds_next _) (proceeds_next _)))
      (proceeds_ite (proceeds_next _) (proceeds_next _)))
  | daa => exact execDaa_proceeds s
  | wav => exact wavRun_proceeds ..
  | wavr => exact wavRun_proceeds ..
  | _ => exact proceeds_next _

/-! ### A step -/

/-- Running the instruction at PC stops on undecodable bytes alone. -/
theorem runInstr_next_or_undecodable (s : State) :
    Proceeds (runInstr s) ∨ ∃ e, runInstr s = .refused (.undecodable e) ∧ decode (fetchBytes s) = .error e := by
  unfold runInstr
  split
  · next i rest hd =>
    obtain ⟨t, ht⟩ := exec_proceeds i { fetchSpend s with pc := s.pc + BitVec.ofNat 16 (6 - rest.length) }
    refine .inl ⟨settle (s.pc + BitVec.ofNat 16 (6 - rest.length)) t, ?_⟩
    simp only [runDecoded, checked_eq, ht]
  · next e hd => exact .inr ⟨e, rfl, hd⟩

theorem stepRunning_next_or_undecodable (s : State) :
    Proceeds (stepRunning s) ∨ ∃ e, stepRunning s = .refused (.undecodable e) ∧
      (decode (fetchBytes s) = .error e ∨ decode (fetchBytes (s.spend 1)) = .error e) := by
  unfold stepRunning
  split
  · exact (runInstr_next_or_undecodable s).imp id fun ⟨e, refused, bytes⟩ => ⟨e, refused, .inl bytes⟩
  · simp only [checked_eq]
    split
    · exact .inl (proceeds_next _)
    · exact (runInstr_next_or_undecodable (s.spend 1)).imp id fun ⟨e, refused, bytes⟩ => ⟨e, refused, .inr bytes⟩

theorem stepWaiting_proceeds (s : State) : Proceeds (stepWaiting s) := by
  unfold stepWaiting
  split
  · exact proceeds_next _
  · simp only [checked_eq]
    exact proceeds_next _

theorem stepStopped_proceeds (s : State) : Proceeds (stepStopped s) := by
  unfold stepStopped
  split
  · simp only [checked_eq]
    exact proceeds_next _
  · exact proceeds_ite (proceeds_next _) (proceeds_next _)

/-- Settles O7: the first part by the instructions, the second by the run state. -/
theorem noInstructionStops : Obligations.NoInstructionStops := by
  refine ⟨exec_proceeds, fun s => ?_⟩
  unfold step cycle
  split
  · exact stepRunning_next_or_undecodable s
  · exact .inl (stepWaiting_proceeds s)
  · exact .inl (stepStopped_proceeds s)

/-! ### Other names -/

/-- ANDCC flag by flag (41_logic_compare_clear.md R165). -/
theorem andCcr_eq (s : State) (v : Byte) : s.andCcr v = { s with
    ccr := ccrOf (s.flagS && v.getLsbD 7) (s.flagX && v.getLsbD 6) (s.flagH && v.getLsbD 5) (s.flagI && v.getLsbD 4)
      (s.flagN && v.getLsbD 3) (s.flagZ && v.getLsbD 2) (s.flagV && v.getLsbD 1) (s.flagC && v.getLsbD 0) } := by
  rw [State.andCcr]
  congr 1
  apply byte_ext <;> simp [State.flagS, State.flagX, State.flagH, State.flagI, State.flagN, State.flagZ, State.flagV,
    State.flagC]

/-- ORCC flag by flag; X is kept (48_lost_rows.md R459). -/
theorem orCcr_eq (s : State) (v : Byte) : s.orCcr v = { s with
    ccr := ccrOf (s.flagS || v.getLsbD 7) s.flagX (s.flagH || v.getLsbD 5) (s.flagI || v.getLsbD 4)
      (s.flagN || v.getLsbD 3) (s.flagZ || v.getLsbD 2) (s.flagV || v.getLsbD 1) (s.flagC || v.getLsbD 0) } := by
  rw [State.orCcr]
  congr 1
  apply byte_ext <;> simp [State.flagS, State.flagX, State.flagH, State.flagI, State.flagN, State.flagZ, State.flagV,
    State.flagC]

/-- LEAS of an address that moves no register is that address in SP (R286). -/
theorem execLeas_off5 (r : Base) (n : BitVec 5) (s : State) :
    execLeas (.off5 r n) s = .next { s with sp := baseVal s s.pc r + n.signExtend 16 } := rfl

theorem execDes_eq (s : State) : execDes s = execLeas (.off5 .sp (-1)) s := by
  have minusOne : (-1 : BitVec 5).signExtend 16 = -1#16 := by decide
  rw [execLeas_off5, minusOne, execDes, BitVec.sub_eq_add_neg]
  rfl

theorem execIns_eq (s : State) : execIns s = execLeas (.off5 .sp 1) s := by
  have one : (1 : BitVec 5).signExtend 16 = 1#16 := by decide
  rw [execLeas_off5, one, execIns]
  rfl

theorem execClc_eq (s : State) : execClc s = execAndcc 0xFE#8 s := by
  simp [execClc, execAndcc, andCcr_eq, State.setC, State.setNZVC, State.setHNZVC]
theorem execCli_eq (s : State) : execCli s = execAndcc 0xEF#8 s := by
  simp [execCli, execAndcc, andCcr_eq, State.setIMask]
theorem execClv_eq (s : State) : execClv s = execAndcc 0xFD#8 s := by
  simp [execClv, execAndcc, andCcr_eq, State.setV, State.setNZVC, State.setHNZVC]
theorem execSec_eq (s : State) : execSec s = execOrcc 0x01#8 s := by
  simp [execSec, execOrcc, orCcr_eq, State.setC, State.setNZVC, State.setHNZVC]
theorem execSei_eq (s : State) : execSei s = execOrcc 0x10#8 s := by
  simp [execSei, execOrcc, orCcr_eq, State.setIMask]
theorem execSev_eq (s : State) : execSev s = execOrcc 0x02#8 s := by
  simp [execSev, execOrcc, orCcr_eq, State.setV, State.setNZVC, State.setHNZVC]

/-- Settles O8: those with a meaning of their own by the lemmas above; the others are defined as their general form. -/
theorem aliasesAgree : Obligations.AliasesAgree := by
  intro i s
  cases i with
  | des => exact execDes_eq s
  | ins => exact execIns_eq s
  | clc => exact execClc_eq s
  | cli => exact execCli_eq s
  | clv => exact execClv_eq s
  | sec => exact execSec_eq s
  | sei => exact execSei_eq s
  | sev => exact execSev_eq s
  | _ => rfl

end Sys2Proof.Machine
end

section
/-! PROOFS. Operand forms in numbers (30_encoding.md R87, R88, R93 to R99; 20_memory.md R58; log 38): an address is a base and an
offset modulo 2^16, and the auto forms write one register. -/

namespace Sys2Proof.Machine

/-! ### Sums modulo 2^16 -/

theorem word_add_eq_ofInt (p : Word) {off : Word} {n : Int} (h : off.toInt = n) :
    p + off = BitVec.ofInt 16 (p.toNat + n) := by
  rw [BitVec.ofInt_add, BitVec.ofInt_natCast, BitVec.ofNat_toNat, BitVec.setWidth_eq, ← h, BitVec.ofInt_toInt]

theorem word_add_signExtend {w : Nat} (hw : w ≤ 16) (p : Word) (n : BitVec w) :
    p + n.signExtend 16 = BitVec.ofInt 16 (p.toNat + n.toInt) :=
  word_add_eq_ofInt p (BitVec.toInt_signExtend_of_le hw)

theorem word_add_eq_ofNat (p off : Word) : p + off = BitVec.ofNat 16 (p.toNat + off.toNat) := add16_result p off

theorem word_add_byte (p : Word) (v : Byte) : p + v.zeroExtend 16 = BitVec.ofNat 16 (p.toNat + v.toNat) := by
  have unsigned : (v.zeroExtend 16).toNat = v.toNat := BitVec.toNat_setWidth_of_le (by decide)
  rw [word_add_eq_ofNat, unsigned]

/-- The adjustments of the auto forms: +1 to +8 and -8 to -1 (R94). -/
theorem autoAdj_toInt : ∀ n : BitVec 4, (autoAdj n).toInt = if 0 ≤ n.toInt then n.toInt + 1 else n.toInt := by decide

theorem word_add_autoAdj (p : Word) (n : BitVec 4) :
    p + autoAdj n = BitVec.ofInt 16 (p.toNat + (if 0 ≤ n.toInt then n.toInt + 1 else n.toInt)) :=
  word_add_eq_ofInt p (autoAdj_toInt n)

/-! ### The auto registers -/

theorem autoVal_setAuto_other (s : State) {q r : AutoReg} (h : q ≠ r) (v : Word) :
    autoVal (setAuto s r v) q = autoVal s q := by
  cases r with
  | x =>
    cases q with
    | x => exact absurd rfl h
    | y | sp => rfl
  | y =>
    cases q with
    | y => exact absurd rfl h
    | x | sp => rfl
  | sp =>
    cases q with
    | sp => exact absurd rfl h
    | x | y => rfl

theorem setAuto_frame (s : State) (r : AutoReg) (v : Word) :
    setAuto s r v = { s with x := (setAuto s r v).x, y := (setAuto s r v).y, sp := (setAuto s r v).sp } := by
  cases r <;> rfl

/-- Settles O46: each form's address as a sum modulo 2^16. -/
theorem operandForms : Obligations.OperandForms := by
  intro s pcb
  refine ⟨fun dd => ⟨?dir, rfl⟩, fun a => ⟨rfl, rfl⟩, fun r n => ⟨?off5, rfl⟩, fun r n => ⟨?off9, rfl⟩,
    fun r n => ⟨?off16, rfl⟩, fun r => ⟨?accA, ?accB, ?accD, rfl, rfl, rfl⟩, fun r n => ?auto, fun r => ⟨?indD, rfl⟩,
    fun r n => ⟨?ind16, rfl⟩⟩
  case dir => exact BitVec.toNat_setWidth_of_le (by decide)
  case off5 => exact word_add_signExtend (by decide) _ n
  case off9 => exact word_add_signExtend (by decide) _ n
  case off16 => exact word_add_eq_ofInt _ rfl
  case accA => exact word_add_byte _ s.a
  case accB => exact word_add_byte _ s.b
  case accD => exact word_add_eq_ofNat _ s.d
  case auto =>
    have moved : autoVal s r + autoAdj n = _ := word_add_autoAdj (autoVal s r) n
    exact ⟨moved, rfl, (autoVal_setAuto ..).trans moved, (autoVal_setAuto ..).trans moved,
      fun p q other => autoVal_setAuto_other s other _, fun p => setAuto_frame ..⟩
  case indD => exact congrArg s.read16 (word_add_eq_ofNat _ s.d)
  case ind16 => exact congrArg s.read16 (word_add_eq_ofInt _ rfl)

end Sys2Proof.Machine
end

section
/-! PROOFS. Branches (40_branch.md; 48_lost_rows.md R417 to R421, R430 to R432, R473, R474): the flags of a compare as the
comparisons of its numbers, the bit tests bit by bit, the loop counters in numbers, then the statements. -/

namespace Sys2Proof.Machine
open Sys2Proof.Safety

/-! ### Short branches and BSR -/

theorem condLt_eq_bne (s : State) : condLt s = (s.flagN != s.flagV) := congrFun₂ Bool.bne_eq_xor.symm s.flagN s.flagV

theorem condLe_eq_bne (s : State) : condLe s = (s.flagZ || s.flagN != s.flagV) :=
  congrArg (s.flagZ || ·) (condLt_eq_bne s)

/-- Settles O17: each is `shortBranch` of its condition. -/
theorem shortBranches : Obligations.ShortBranches := by
  intro rr s
  have taken (c : Bool) : shortBranch s c rr = branches s c rr.toInt := shortBranch_eq s c rr
  refine ⟨⟨rfl, taken _⟩, ⟨rfl, ?ble⟩, ⟨rfl, taken _⟩, ⟨rfl, taken _⟩, ⟨rfl, ?blt⟩, ⟨rfl, taken _⟩, ⟨rfl, taken _⟩,
    ⟨rfl, taken _⟩, ⟨rfl, taken _⟩, ⟨rfl, rfl⟩, ⟨rfl, taken _⟩, ⟨rfl, taken _⟩⟩
  case ble => exact condLe_eq_bne s ▸ taken (condLe s)
  case blt => exact condLt_eq_bne s ▸ taken (condLt s)

/-- Settles O22: the push stores the return address at the new SP and leaves the registers but SP alone. -/
theorem branchToSubroutine : Obligations.BranchToSubroutine := by
  intro rr s
  refine ⟨rfl, _, rfl, storesWord_of (u := { s with sp := s.sp - 2 }) rfl rfl, ?frame⟩
  case frame =>
    have target : s.pc + rr.signExtend 16 = BitVec.ofInt 16 (s.pc.toNat + rr.toInt) :=
      word_add_signExtend (by decide) s.pc rr
    rw [target]
    rfl

/-! ### Bit-test branches -/

/-- A masked byte is zero exactly when every selected bit is. -/
theorem and_eq_zero_iff_selected (v mm : Byte) :
    v &&& mm = 0 ↔ ∀ k : Fin 8, mm.getLsbD k = true → v.getLsbD k = false := by
  constructor
  · intro masked k selected
    have bit := congrArg (·.getLsbD k) masked
    simpa only [BitVec.getLsbD_and, selected, Bool.and_true, BitVec.ofNat_eq_ofNat, BitVec.getLsbD_zero] using bit
  · intro clear
    refine BitVec.eq_of_getLsbD_eq fun k hk => ?_
    rw [BitVec.getLsbD_and]
    cases selected : mm.getLsbD k with
    | false => simp
    | true => simp [clear ⟨k, hk⟩ selected]

/-- Settles O21: BRSET is BRCLR's test of the complement. -/
theorem bitTestBranches : Obligations.BitTestBranches := by
  intro m mm rr s
  have tested (v : Byte) : shortBranch (trailingUpdate s m) (v &&& mm == 0) rr = branches (trailingUpdate s m)
      (decide (∀ k : Fin 8, mm.getLsbD k = true → v.getLsbD k = false)) rr.toInt := by
    rw [shortBranch_eq, beq_eq_decide, decide_eq_decide.2 (and_eq_zero_iff_selected v mm)]
  have complement (v : Byte) (k : Fin 8) : (~~~v).getLsbD k = false ↔ v.getLsbD k = true := by simp
  refine ⟨tested _, (tested (~~~s.read8 (trailingEa s m))).trans ?_⟩
  simp only [complement]

/-! ### Loop primitives -/

/-- The counter's new value in numbers (R146). -/
theorem counter_cntrAdd (s : State) (c : Cntr) (d : Word) :
    (counter (cntrAdd s d c) c : Int) = (counter s c + d.toInt) % counterModulus c := by
  have word (v : Word) : ((v + d).toNat : Int) = (v.toNat + d.toInt) % 65536 := by
    rw [BitVec.toNat_add, BitVec.toInt_eq_toNat_cond]
    split <;> omega
  have byte (v : Byte) : ((v + d.truncate 8).toNat : Int) = (v.toNat + d.toInt) % 256 := by
    rw [BitVec.toNat_add, BitVec.truncate, BitVec.toNat_setWidth, BitVec.toInt_eq_toNat_cond]
    split <;> omega
  cases c with
  | a => exact byte s.a
  | b => exact byte s.b
  | d =>
    have sum := word s.d
    rw [← s.d_setD (s.d + d), State.d_toNat, State.d_toNat] at sum
    exact sum
  | x => exact word s.x
  | y => exact word s.y
  | sp => exact word s.sp

theorem cntrIsZero_eq (s : State) (c : Cntr) : cntrIsZero s c = decide (counter s c = 0) := by
  cases c with
  | d => exact (eq0_zero s.d).trans (by rw [zero, State.d_toNat]; rfl)
  | a | b | x | y | sp => exact eq0_zero _

@[simp] theorem cntrAdd_stale (s : State) (d : Word) (c : Cntr) : (cntrAdd s d c).stale = s.stale := by cases c <;> rfl

/-- Only the counter's registers change, whatever PC and the queue become (R146). -/
theorem cntrAdd_frame (s : State) (d : Word) (c : Cntr) :
    let u := cntrAdd s d c
    (c ≠ .a → c ≠ .d → u.a = s.a) ∧ (c ≠ .b → c ≠ .d → u.b = s.b) ∧ (c ≠ .x → u.x = s.x) ∧ (c ≠ .y → u.y = s.y) ∧
    (c ≠ .sp → u.sp = s.sp) ∧
    ∀ pc stale, { u with pc := pc, stale := stale } =
      { s with a := u.a, b := u.b, x := u.x, y := u.y, sp := u.sp, pc := pc, stale := stale } := by
  cases c <;> simp [cntrAdd, State.setD]

/-- A counter does not depend on PC or the queue. -/
theorem counter_goto (s : State) (c : Cntr) (pc : Word) (stale : List Host.Cell) :
    counter { s with pc := pc, stale := stale } c = counter s c := by
  cases c <;> rfl

/-- A loop primitive is a branch of the state with the counter updated, on that counter. -/
theorem loopPrimitive_eq (s : State) (c : Cntr) (d : Word) (onZero : Bool) (off : BitVec 9) :
    loopPrimitive s c d onZero off =
      branches (cntrAdd s d c) (decide (counter (cntrAdd s d c) c = 0) == onZero) off.toInt := by
  rw [← cntrIsZero_eq]
  exact branchIf_eq _ _ _ _ (BitVec.toInt_signExtend_of_le (by decide))

/-- A loop primitive with the step `d` (R146). -/
theorem loopPrimitive_looped (s : State) (c : Cntr) {d : Word} {n : Int} (h : d.toInt = n) (onZero : Bool)
    (off : BitVec 9) : ∃ t, loopPrimitive s c d onZero off = .next t ∧ Looped s t c n onZero off.toInt := by
  obtain ⟨a, b, x, y, sp, rest⟩ := cntrAdd_frame s d c
  refine ⟨_, loopPrimitive_eq .., ?sum, ?target, ?queue, a, b, x, y, sp, ?frame⟩
  case sum => rw [counter_goto, counter_cntrAdd, h]
  case target => simp only [counter_goto, beq_iff_eq, cntrAdd_pc]
  case queue => simp only [counter_goto, beq_iff_eq, cntrAdd_stale]
  case frame => exact rest _ _

/-- Settles O20: each is `loopPrimitive` with the step 1, -1 or 0. -/
theorem loopPrimitives : Obligations.LoopPrimitives := by
  intro c off s
  have up : (1 : Word).toInt = 1 := by decide
  have down : (-1 : Word).toInt = -1 := by decide
  have still : (0 : Word).toInt = 0 := by decide
  exact ⟨loopPrimitive_looped s c up true off, loopPrimitive_looped s c up false off,
    loopPrimitive_looped s c down true off, loopPrimitive_looped s c down false off,
    loopPrimitive_looped s c still true off, loopPrimitive_looped s c still false off⟩

/-! ### After a compare -/

/-- The sign of a difference, corrected by overflow, is the signed comparison. -/
theorem negative_xor_overflows {w : Nat} (p m : BitVec w) :
    (negative (p - m) ^^ overflows w (p.toInt - m.toInt)) = decide (p.toInt < m.toInt) := by
  rcases w with _ | w
  · simp [negative, overflows, BitVec.toInt_of_zero_length]
  have pLow := p.le_toInt
  have pHigh := p.toInt_lt
  have mLow := m.le_toInt
  have mHigh := m.toInt_lt
  have whole : ((2 ^ (w + 1) : Nat) : Int) = 2 * 2 ^ w := by rw [pow_succ']; norm_cast
  rw [Nat.add_sub_cancel] at pLow pHigh mLow mHigh
  have sign := Int.bmod_neg_iff (m := 2 ^ (w + 1)) (x := p.toInt - m.toInt) (by omega) (by omega)
  rw [← BitVec.toInt_sub, whole] at sign
  rw [negative, overflows, Nat.add_sub_cancel]
  by_cases outside : p.toInt - m.toInt < -2 ^ w ∨ 2 ^ w ≤ p.toInt - m.toInt
  · rw [decide_eq_true outside, Bool.xor_true, ← decide_not, decide_eq_decide]
    omega
  · rw [decide_eq_false outside, Bool.xor_false, decide_eq_decide]
    omega

theorem zero_sub_eq {w : Nat} (p m : BitVec w) : zero (p - m) = decide (p.toNat = m.toNat) := by
  rw [← eq0_zero, beq_eq_decide, decide_eq_decide]
  exact sub_eq_zero.trans BitVec.toNat_inj.symm

/-- The flags of `t` compare two numbers: C and Z the unsigned `pn` and `mn`, N and V the signed `pi` and `mi` (00_scope.md
R15). -/
structure FlagsCompare (t : State) (pn mn : Nat) (pi mi : Int) : Prop where
  lower : t.flagC = decide (pn < mn)
  same : t.flagZ = decide (pn = mn)
  less : (t.flagN ^^ t.flagV) = decide (pi < mi)
  signed : pn = mn ↔ pi = mi

/-- N, Z, V and C of a difference, at any width, compare its two numbers. -/
theorem flagsCompare_of_ccr {w : Nat} {s t : State} (p m : BitVec w)
    (ccr : t.ccr = ccrNZVC s (negative (p - m)) (zero (p - m)) (overflows w (p.toInt - m.toInt))
      (decide (p.toNat < m.toNat))) :
    FlagsCompare t p.toNat m.toNat p.toInt m.toInt where
  lower := by simp [State.flagC, ccr, ccrNZVC]
  same := by simp [State.flagZ, ccr, ccrNZVC, zero_sub_eq]
  less := by simp [State.flagN, State.flagV, ccr, ccrNZVC, negative_xor_overflows]
  signed := BitVec.toNat_inj.trans BitVec.toInt_inj.symm

theorem flagsSub_compare_byte (s : State) (p m : Byte) :
    FlagsCompare (s.flagsSub p m (p - m)) p.toNat m.toNat p.toInt m.toInt := by
  refine flagsCompare_of_ccr (s := s) p m ?_
  rw [sub8_flags', sub8_result']
  simp [ccrSub8]

theorem flagsSub_compare_word (s : State) (p m : Word) :
    FlagsCompare (s.flagsSub p m (p - m)) p.toNat m.toNat p.toInt m.toInt := by
  refine flagsCompare_of_ccr (s := s) p m ?_
  rw [sub16_flags, sub16_result]
  simp [ccrSub16]

namespace FlagsCompare

variable {t : State} {pn mn : Nat} {pi mi : Int} (h : FlagsCompare t pn mn pi mi)
include h

theorem condHs_eq : condHs t = decide (mn ≤ pn) := by
  simp only [condHs, h.lower, ← decide_not, not_lt]
theorem condLo_eq : condLo t = decide (pn < mn) := h.lower
theorem condLs_eq : condLs t = decide (pn ≤ mn) := by
  rw [condLs, h.lower, h.same, ← Bool.decide_or, decide_eq_decide]; omega
theorem condHi_eq : condHi t = decide (mn < pn) := by
  rw [condHi, ← condLs, h.condLs_eq, ← decide_not, decide_eq_decide, not_le]
theorem condGe_eq : condGe t = decide (mi ≤ pi) := by
  simp only [condGe, h.less, ← decide_not, not_lt]
theorem condLt_eq : condLt t = decide (pi < mi) := h.less
theorem condLe_eq : condLe t = decide (pi ≤ mi) := by
  rw [condLe, h.less, h.same, decide_eq_decide.2 h.signed, ← Bool.decide_or, decide_eq_decide]; omega
theorem condGt_eq : condGt t = decide (mi < pi) := by
  rw [condGt, ← condLe, h.condLe_eq, ← decide_not, decide_eq_decide, not_le]
theorem notZ_eq : (!t.flagZ) = decide (pn ≠ mn) := by rw [h.same]; simp

/-- Where the flags compare two numbers, so does every branch. -/
theorem branchesCompare : BranchesCompare t pn mn pi mi := by
  have short {c taken : Bool} (e : c = taken) (rr : Byte) : shortBranch t c rr = branches t taken rr.toInt :=
    e ▸ shortBranch_eq t c rr
  have long {c taken : Bool} (e : c = taken) (w : Word) : longBranch t c w = branches t taken w.toInt :=
    e ▸ longBranch_eq t c w
  exact ⟨fun rr => ⟨short h.condHs_eq rr, short h.condLo_eq rr, short h.condLs_eq rr, short h.condHi_eq rr,
      short h.condGe_eq rr, short h.condLt_eq rr, short h.condLe_eq rr, short h.condGt_eq rr, short h.same rr,
      short h.notZ_eq rr⟩,
    fun w => ⟨long h.condHs_eq w, long h.condLo_eq w, long h.condLs_eq w, long h.condHi_eq w, long h.condGe_eq w,
      long h.condLt_eq w, long h.condLe_eq w, long h.condGt_eq w, long h.same w, long h.notZ_eq w⟩⟩

end FlagsCompare

/-- Settles O19: each compare leaves the flags of a subtraction, and they compare its two numbers. -/
theorem branchAfterCompare : Obligations.BranchAfterCompare := by
  refine ⟨fun o s => ⟨_, rfl, ?cmpa⟩, fun o s => ⟨_, rfl, ?cmpb⟩, fun o s => ⟨_, rfl, ?cpd⟩⟩
  case cmpa => exact (flagsSub_compare_byte (src8Update s o) s.a (src8Val s o)).branchesCompare
  case cmpb => exact (flagsSub_compare_byte (src8Update s o) s.b (src8Val s o)).branchesCompare
  case cpd => exact (flagsSub_compare_word (src16Update s o) s.d (src16Val s o)).branchesCompare

end Sys2Proof.Machine
end

section
/-! PROOFS. Logic, compare, clear and test (41_logic_compare_clear.md; 48_lost_rows.md R409, R410, R416, R425 to R428,
R457 to R459, R462, R471, R472): each shared operation in the terms of Sys2Proof.Safety, said once, then the statements. -/

namespace Sys2Proof.Machine
open Sys2Proof.Safety

/-! ### Compares -/

/-- An 8-bit compare in numbers; the operand's update does not touch the register the flags are kept from. -/
theorem cmpAcc_eq (r : Acc) (o : Src8) (s : State) :
    cmpAcc r o s = .next { src8Update s o with ccr := ccrSub8 s (s.acc r) (src8Val s o) 0 } := by
  simp only [cmpAcc]
  rw [sub8_flags', ccrSub8_congr (src8Update_ccr s o)]

/-- A 16-bit compare in numbers, over any state that kept the condition codes. -/
theorem cmpWord_eq {s t : State} (kept : t.ccr = s.ccr) (v : Word) (o : Src16) :
    cmpWord v o s t = .next { t with ccr := ccrSub16 s v (src16Val s o) } := by
  simp only [cmpWord]
  rw [sub16_flags, ccrSub16_congr kept]

/-- A compare of an index register or SP that the operand leaves alone. -/
theorem cmpAuto_of_ne {r : AutoReg} {o : Src16} (other : src16Auto o ≠ some r) (s : State) :
    cmpAuto r o s = .next { src16Update s o with ccr := ccrSub16 s (autoVal s r) (src16Val s o) } := by
  simp only [cmpAuto]
  rw [hazardVal_ne other, hazardSpend_ne other]
  exact cmpWord_eq (src16Update_ccr s o) _ o

/-- A compare of the register the operand auto-modifies: of its old or its new value (R547; log 15). -/
theorem cmpAuto_of_eq {r : AutoReg} {o : Src16} (same : src16Auto o = some r) (s : State) :
    ∃ t, cmpAuto r o s = .next t ∧ t = { src16Update s o with ccr := t.ccr, draws := t.draws } ∧
      (t.ccr = ccrSub16 s (autoVal s r) (src16Val s o) ∨
        t.ccr = ccrSub16 s (autoVal (src16Update s o) r) (src16Val s o)) := by
  simp only [cmpAuto]
  rw [same]
  refine ⟨_, cmpWord_eq (by simp) _ o, ?frame, ?flags⟩
  case frame => simp [hazardSpend, State.spend]
  case flags => exact (hazardVal_or s (src16Update s o) r).imp (congrArg (ccrSub16 s · _)) (congrArg (ccrSub16 s · _))

/-- Settles O32: each is `cmpAcc`, `cmpWord` or `cmpAuto`, the last by whether the operand moves its register. -/
theorem compares : Obligations.Compares := by
  refine ⟨fun o s => ⟨cmpAcc_eq .a o s, cmpAcc_eq .b o s⟩, fun s => ?cba, fun o s => ⟨?cpd,
    (cmpAuto_of_ne · s), (cmpAuto_of_ne · s), (cmpAuto_of_ne · s),
    (cmpAuto_of_eq · s), (cmpAuto_of_eq · s), (cmpAuto_of_eq · s)⟩⟩
  case cba => exact congrArg Host.Outcome.next (sub8_flags' s s.a s.b)
  case cpd => exact cmpWord_eq (src16Update_ccr s o) s.d o

/-! ### Logic and bit tests -/

/-- A logic operation into an accumulator: the result and its flags (R161, R174, R409, R457). -/
theorem logicAcc_eq (f : Byte → Byte → Byte) (r : Acc) (o : Src8) (s : State) :
    logicAcc f r o s = .next { (src8Update s o).setAcc r (f (s.acc r) (src8Val s o)) with
      ccr := ccrLogic s (f (s.acc r) (src8Val s o)) } := by
  have kept (v : Byte) : ((src8Update s o).setAcc r v).ccr = s.ccr := by simp
  simp only [logicAcc]
  rw [logicFlags, ccrLogic_congr (kept _)]

/-- A bit test leaves the flags of the logical and (R161, R162). -/
theorem bitAcc_eq (r : Acc) (o : Src8) (s : State) :
    bitAcc r o s = .next { src8Update s o with ccr := ccrLogic s (s.acc r &&& src8Val s o) } := by
  simp only [bitAcc]
  rw [logicFlags, ccrLogic_congr (src8Update_ccr s o)]

/-- Settles O33: each is `logicAcc` of an operation and an accumulator, or `bitAcc`. -/
theorem logic : Obligations.Logic := by
  intro o s
  exact ⟨logicAcc_eq _ .a o s, logicAcc_eq _ .b o s, logicAcc_eq _ .a o s, logicAcc_eq _ .b o s, logicAcc_eq _ .a o s,
    logicAcc_eq _ .b o s, bitAcc_eq .a o s, bitAcc_eq .b o s⟩

/-! ### Writes of the condition codes -/

theorem State.setNZVC_eq (s : State) (n z v c : Bool) : s.setNZVC n z v c = { s with ccr := ccrNZVC s n z v c } := rfl

/-- Loading CCR changes nothing else (R34). -/
theorem loadCcr_eq (s : State) (v : Byte) : s.loadCcr v = { s with ccr := ccrLoaded s v } := by
  rw [← loadCcr_ccr]
  rfl

/-- Settles O34: the encoder evaluated; each effect is, by definition, a write of the named flags. -/
theorem clears : Obligations.Clears :=
  fun _ => ⟨⟨rfl, rfl⟩, ⟨rfl, rfl⟩, ⟨rfl, rfl⟩, ⟨rfl, rfl⟩, ⟨rfl, rfl⟩⟩

/-- Settles O35: ANDCC and ORCC flag by flag, TAP a load of CCR; the others are plain writes of one flag or of A. -/
theorem ccrWrites : Obligations.CcrWrites := by
  intro ii s
  refine ⟨?andcc, ?orcc, rfl, rfl, rfl, ?tap, rfl⟩
  case andcc => exact congrArg Host.Outcome.next (andCcr_eq s ii)
  case orcc => exact congrArg Host.Outcome.next (orCcr_eq s ii)
  case tap => exact congrArg Host.Outcome.next (loadCcr_eq s s.a)

/-! ### Clears, tests and bits of memory -/

/-- The flags of a test, over any state that kept the condition codes (R176). -/
theorem setNZVC_test {s t : State} (kept : t.ccr = s.ccr) (v : Byte) :
    t.setNZVC (isNeg v) (isZero v) false false = { t with ccr := ccrNZVC s (negative v) (zero v) false false } := by
  rw [State.setNZVC_eq, isNeg_eq, isZero_eq, ccrNZVC_congr kept]

/-- CLR stores 0 at the operand (R168). -/
theorem execClr_stores (m : Addr) (s : State) :
    ∃ t, execClr m s = .next t ∧ StoresByte s t (addrEa s s.pc m) 0 ∧
      t = { addrUpdate s m with ccr := ccrNZVC s false true false false, mem := t.mem, stale := t.stale } := by
  refine ⟨_, rfl, storesByte_of (addrUpdate_mem s m) rfl, ?frame⟩
  case frame =>
    rw [State.setNZVC_eq, ccrNZVC_congr ((State.write8_ccr ..).trans (addrUpdate_ccr s m))]
    rfl

/-- A bit set or clear stores the changed byte at the operand, with the flags of that byte (R163, R416). -/
theorem bitsMem_stores (f : Byte → Byte) (m : Addr) (s : State) :
    ∃ t, bitsMem f m s = .next t ∧ StoresByte s t (trailingEa s m) (f (s.read8 (trailingEa s m))) ∧
      t = { trailingUpdate s m with
        ccr := ccrLogic s (f (s.read8 (trailingEa s m))), mem := t.mem, stale := t.stale } := by
  refine ⟨_, rfl, storesByte_of (trailingUpdate_mem s m) rfl, ?frame⟩
  case frame =>
    rw [logicFlags, ccrLogic_congr ((State.write8_ccr ..).trans (trailingUpdate_ccr s m))]
    rfl

/-- Settles O36: the tests write flags alone, CLR, BSET and BCLR store one byte. -/
theorem memoryBits : Obligations.MemoryBits := by
  refine ⟨fun s => ⟨?tsta, ?tstb⟩, fun m s => ⟨?tst, execClr_stores m s⟩, fun m mm s => ⟨?bset, ?bclr⟩⟩
  case tsta => exact congrArg Host.Outcome.next (setNZVC_test rfl s.a)
  case tstb => exact congrArg Host.Outcome.next (setNZVC_test rfl s.b)
  case tst => exact congrArg Host.Outcome.next (setNZVC_test (addrUpdate_ccr s m) (s.read8 (addrEa s s.pc m)))
  case bset => exact bitsMem_stores (· ||| mm) m s
  case bclr => exact bitsMem_stores (· &&& ~~~mm) m s

end Sys2Proof.Machine
end

section
/-! PROOFS. One-operand arithmetic and steps by one (42_arithmetic.md R190 to R195; 48_lost_rows.md R402, R403, R422 to R424,
R433 to R438, R453 to R455): each operation in numbers, said once over the old byte, then the two shared operations. -/

namespace Sys2Proof.Machine
open Sys2Proof.Safety

/-! ### The operation and its flags in numbers -/

/-- From the byte `old` the operation `f` makes `r`, and `g` leaves the N and Z of `r`, V `v` and C `c`, the rest of the
condition codes as in `s`. -/
structure UnaryNumbers (f : Byte → Byte) (g : State → Byte → Byte → State) (s : State) (old r : Byte) (v c : Bool) :
    Prop where
  result : f old = r
  flags : ∀ t : State, t.ccr = s.ccr → g t old r = { t with ccr := ccrNZVC s (negative r) (zero r) v c }

theorem unaryNumbers_dec (s : State) (old : Byte) :
    UnaryNumbers (· - 1) flagsDec s old (BitVec.ofInt 8 (old.toInt - 1)) (overflows 8 (old.toInt - 1)) s.flagC := by
  obtain ⟨result, overflow⟩ := dec_eq old
  refine ⟨result, fun t kept => ?_⟩
  rw [flagsDec, State.setNZV, State.setNZVC_eq, isNeg_eq, isZero_eq, overflow, ccrNZVC_congr kept, State.flagC, kept]
  rfl

theorem unaryNumbers_inc (s : State) (old : Byte) :
    UnaryNumbers (· + 1) flagsInc s old (BitVec.ofInt 8 (old.toInt + 1)) (overflows 8 (old.toInt + 1)) s.flagC := by
  obtain ⟨result, overflow⟩ := inc_eq old
  refine ⟨result, fun t kept => ?_⟩
  rw [flagsInc, State.setNZV, State.setNZVC_eq, isNeg_eq, isZero_eq, overflow, ccrNZVC_congr kept, State.flagC, kept]
  rfl

theorem unaryNumbers_neg (s : State) (old : Byte) :
    UnaryNumbers (0 - ·) flagsNeg s old (BitVec.ofInt 8 (-old.toInt)) (overflows 8 (-old.toInt)) (!zero old) := by
  obtain ⟨result, overflow, carry⟩ := neg_eq_ofInt old
  refine ⟨result, fun t kept => ?_⟩
  rw [flagsNeg, State.setNZVC_eq, isNeg_eq, isZero_eq, ← result, overflow, carry, ccrNZVC_congr kept]

theorem unaryNumbers_com (s : State) (old : Byte) :
    UnaryNumbers (~~~ ·) flagsCom s old (BitVec.ofInt 8 (-1 - old.toInt)) false true := by
  refine ⟨com_eq old, fun t kept => ?_⟩
  rw [flagsCom, State.setNZVC_eq, isNeg_eq, isZero_eq, ccrNZVC_congr kept]

section Operations

variable {f : Byte → Byte} {g : State → Byte → Byte → State} {s : State} {r : Byte} {v c : Bool}

/-- On memory: the operand's address is resolved once, its update touches no condition code (R190). -/
theorem UnaryNumbers.mem {m : Addr} (h : UnaryNumbers f g s (s.read8 (addrEa s s.pc m)) r v c) :
    ∃ t, unaryMem f g m s = .next t ∧ StoresByte s t (addrEa s s.pc m) r ∧
      t = { addrUpdate s m with ccr := ccrNZVC s (negative r) (zero r) v c, mem := t.mem, stale := t.stale } := by
  have answer : unaryMem f g m s = .next
      { (addrUpdate s m).write8 (addrEa s s.pc m) r with ccr := ccrNZVC s (negative r) (zero r) v c } := by
    simp only [unaryMem, h.result]
    rw [h.flags _ ((State.write8_ccr ..).trans (addrUpdate_ccr s m))]
  exact ⟨_, answer, storesByte_of (addrUpdate_mem s m) rfl, rfl⟩

/-- On an accumulator. -/
theorem UnaryNumbers.acc {q : Acc} (h : UnaryNumbers f g s (s.acc q) r v c) :
    unaryAcc f g q s = .next { s.setAcc q r with ccr := ccrNZVC s (negative r) (zero r) v c } := by
  simp only [unaryAcc, h.result]
  rw [h.flags _ (State.setAcc_ccr ..)]

end Operations

/-! ### Index registers -/

/-- Z of a new value, over any state that kept the condition codes; every other flag is kept (R194). -/
theorem setZ_zero {s t : State} (kept : t.ccr = s.ccr) (r : Word) :
    t.setZ (r == 0) = { t with ccr := ccrNZVC s s.flagN (zero r) s.flagV s.flagC } := by
  rw [eq0_zero, State.setZ, State.setNZVC_eq, ccrNZVC_congr kept]
  simp only [flags_congr kept]

/-! ### The statements -/

/-- Settles O37: each is `unaryMem` of one operation in numbers. -/
theorem unaryMemory : Obligations.UnaryMemory := by
  intro m s
  exact ⟨(unaryNumbers_dec s _).mem, (unaryNumbers_inc s _).mem, (unaryNumbers_neg s _).mem, (unaryNumbers_com s _).mem⟩

/-- Settles O38: the four operations on A and B by `unaryAcc`, the steps of X, Y and SP as steps of a word. -/
theorem unaryRegisters : Obligations.UnaryRegisters := by
  intro s
  refine ⟨(unaryNumbers_dec s _).acc (q := .a), (unaryNumbers_dec s _).acc (q := .b), (unaryNumbers_inc s _).acc (q := .a),
    (unaryNumbers_inc s _).acc (q := .b), (unaryNumbers_neg s _).acc (q := .a), (unaryNumbers_neg s _).acc (q := .b),
    (unaryNumbers_com s _).acc (q := .a), (unaryNumbers_com s _).acc (q := .b),
    ?dex, ?dey, ?inx, ?iny, ?des, ?ins, ?abx, ?aby⟩
  case dex => rw [← word_dec_eq]; exact congrArg Host.Outcome.next (setZ_zero rfl _)
  case dey => rw [← word_dec_eq]; exact congrArg Host.Outcome.next (setZ_zero rfl _)
  case inx => rw [← word_inc_eq]; exact congrArg Host.Outcome.next (setZ_zero rfl _)
  case iny => rw [← word_inc_eq]; exact congrArg Host.Outcome.next (setZ_zero rfl _)
  case des => rw [← word_dec_eq]; rfl
  case ins => rw [← word_inc_eq]; rfl
  case abx => rw [← word_add_byte]; rfl
  case aby => rw [← word_add_byte]; rfl

end Sys2Proof.Machine
end

section
/-! PROOFS. Multiplications (42_arithmetic.md R198 to R200; 48_lost_rows.md R452; log 36): the products are exact in the wider
word, and a 32-bit sum's carry out of bit 15 and overflow in numbers. -/

namespace Sys2Proof.Machine
open Sys2Proof.Safety

/-! ### Exact products -/

theorem toNat_mul_byte (p q : Byte) : (p.zeroExtend 16 * q.zeroExtend 16 : Word).toNat = p.toNat * q.toNat := by
  have bound : p.toNat * q.toNat < 2 ^ 8 * 2 ^ 8 := Nat.mul_lt_mul'' p.isLt q.isLt
  simpa [BitVec.toNat_mul] using bound

theorem toNat_mul_word (p q : Word) : (p.zeroExtend 32 * q.zeroExtend 32 : BitVec 32).toNat = p.toNat * q.toNat := by
  have bound : p.toNat * q.toNat < 2 ^ 16 * 2 ^ 16 := Nat.mul_lt_mul'' p.isLt q.isLt
  simpa [BitVec.toNat_mul] using bound

theorem toInt_mul_word (p q : Word) : (p.signExtend 32 * q.signExtend 32 : BitVec 32).toInt = p.toInt * q.toInt := by
  have bound : |p.toInt * q.toInt| ≤ 2 ^ 15 * 2 ^ 15 := by
    rw [abs_mul]
    exact mul_le_mul (abs_le.2 ⟨p.le_toInt, p.toInt_lt.le⟩) (abs_le.2 ⟨q.le_toInt, q.toInt_lt.le⟩) (abs_nonneg _) (by decide)
  obtain ⟨low, high⟩ := abs_le.1 bound
  rw [BitVec.toInt_mul, BitVec.toInt_signExtend_of_le (by decide), BitVec.toInt_signExtend_of_le (by decide)]
  apply Int.bmod_eq_of_le <;> norm_num <;> omega

theorem zero_eq_toInt {w : Nat} (r : BitVec w) : zero r = decide (r.toInt = 0) := by
  rw [← eq0_zero, Bool.eq_iff_iff, beq_iff_eq, decide_eq_true_iff, ← BitVec.toInt_inj]
  simp

/-! ### Products in D and in Y:D -/

/-- Writing a 16-bit product to D and its bit 7 to C (R452; log 36). -/
theorem setD_product (s : State) (p : Word) :
    ∃ t, (.next ((s.setD p).setC (p.getLsbD 7)) : Answer) = .next t ∧ t.d = p ∧
      t = { s with a := t.a, b := t.b, ccr := ccrNZVC s s.flagN s.flagZ s.flagV (t.d.getLsbD 7) } := by
  have pair : ((s.setD p).setC (p.getLsbD 7)).d = p := s.d_setD p
  refine ⟨_, rfl, pair, ?frame⟩
  case frame => rw [pair]; rfl

@[simp] theorem State.yd_setYD (s : State) (v : BitVec 32) : (s.setYD v).yd = v := by
  rw [State.yd, State.d, State.setYD_y, State.setYD_a, State.setYD_b, joinBytes_hiByte_loByte,
    BitVec.extractLsb'_append_extractLsb'_eq_extractLsb' (by decide), BitVec.extractLsb'_eq_self]

theorem negative_yd (s : State) : negative s.yd = negative s.y := by
  have pair := s.yd_toInt
  have low := s.d.isLt
  rw [negative, negative, decide_eq_decide]
  omega

theorem getLsbD_yd (s : State) : s.yd.getLsbD 15 = decide (32768 ≤ s.d.toNat) := by
  have pair := s.yd_toNat
  have low := s.d.isLt
  rw [getLsbD_eq_div_mod, decide_eq_decide]
  omega

/-- Writing a 32-bit product to Y:D and its flags (R199, R200; log 36). -/
theorem setYD_product (s : State) (p : BitVec 32) :
    ∃ t, (.next ((s.setYD p).setNZC (isNeg p) (isZero p) (p.getLsbD 15)) : Answer) = .next t ∧ t.yd = p ∧
      t = { s with
        a := t.a, b := t.b, y := t.y
        ccr := ccrNZVC s (negative p) (zero p) s.flagV (decide (32768 ≤ t.d.toNat)) } := by
  refine ⟨_, rfl, s.yd_setYD p, ?frame⟩
  case frame =>
    have carry := getLsbD_yd (s.setYD p)
    rw [State.yd_setYD] at carry
    rw [isNeg_eq, isZero_eq, carry]
    rfl

/-! ### A 32-bit sum -/

/-- The carry out of bit 15, from the low words (R198). -/
theorem addCarry_long (m p : BitVec 32) :
    addCarry 15 m p (m + p) = decide ((65536 : Int) ≤ m.toNat % 65536 + p.toInt % 65536) := by
  have hm := m.isLt
  have hp := p.isLt
  simp only [addCarry, getLsbD_eq_div_mod, BitVec.toNat_add, BitVec.toInt_eq_toNat_cond]
  rw [Bool.eq_iff_iff]; simp; omega

/-- Signed overflow of a 32-bit addition. -/
theorem addV_long (m p : BitVec 32) : addV m p (m + p) = overflows 32 (m.toInt + p.toInt) := by
  have hm := m.isLt
  have hp := p.isLt
  simp only [addV, overflows, BitVec.msb_eq_decide, BitVec.toNat_add, BitVec.toInt_eq_toNat_cond]
  rw [Bool.eq_iff_iff]; simp; omega

/-- A product added to the four bytes at the operand (R198). -/
theorem execEmacs_stores (hhll : Word) (s : State) (p : BitVec 32)
    (product : p = (s.read16 s.x).signExtend 32 * (s.read16 s.y).signExtend 32) :
    ∃ t, execEmacs hhll s = .next t ∧ StoresLong s t hhll (s.read32 hhll + p) ∧
      t = { s with
        ccr := ccrNZVC s (negative (s.read32 hhll + p)) (zero (s.read32 hhll + p))
          (overflows 32 ((s.read32 hhll).toInt + p.toInt))
          (decide ((65536 : Int) ≤ (s.read32 hhll).toNat % 65536 + p.toInt % 65536))
        mem := t.mem
        stale := t.stale } := by
  subst product
  refine ⟨_, rfl, storesLong_of rfl rfl, ?frame⟩
  case frame =>
    rw [State.setNZVC_eq, ccrNZVC_congr (State.write32_ccr ..), isNeg_eq, isZero_eq, addV_long, addCarry_long]
    ext1 <;> simp

/-! ### The statement -/

/-- Settles O40: MUL by `setD_product`, EMUL and EMULS by `setYD_product`, EMACS by `execEmacs_stores`. -/
theorem multiplications : Obligations.Multiplications := by
  refine ⟨fun s => ⟨?mul, ?emul, ?emuls⟩, fun hhll s => ?emacs⟩
  case mul =>
    obtain ⟨t, answer, pair, frame⟩ := setD_product s (s.a.zeroExtend 16 * s.b.zeroExtend 16)
    exact ⟨t, answer, (congrArg BitVec.toNat pair).trans (toNat_mul_byte s.a s.b), frame⟩
  case emul =>
    obtain ⟨t, answer, pair, frame⟩ := setYD_product s (s.d.zeroExtend 32 * s.y.zeroExtend 32)
    have product := congrArg BitVec.toNat pair
    rw [State.yd_toNat, toNat_mul_word] at product
    rw [zero, toNat_mul_word, ← pair, negative_yd] at frame
    exact ⟨t, answer, product, frame⟩
  case emuls =>
    obtain ⟨t, answer, pair, frame⟩ := setYD_product s (s.d.signExtend 32 * s.y.signExtend 32)
    have product := congrArg BitVec.toInt pair
    rw [State.yd_toInt, toInt_mul_word] at product
    rw [zero_eq_toInt, negative, toInt_mul_word] at frame
    exact ⟨t, answer, product, frame⟩
  case emacs =>
    obtain ⟨t, answer, stores, frame⟩ := execEmacs_stores hhll s _ rfl
    have sum (m p : BitVec 32) : m + p = BitVec.ofInt 32 (m.toInt + p.toInt) := by
      rw [BitVec.ofInt_add, BitVec.ofInt_toInt, BitVec.ofInt_toInt]
    rw [sum, toInt_mul_word] at stores frame
    exact ⟨t, answer, stores, frame⟩

end Sys2Proof.Machine
end

section
/-! PROOFS. Divisions (42_arithmetic.md R196, R197, R201 to R203, R207; log 9, 10, 35): the quotient and the remainder where they
fit, and what a zero divisor or an overflow leaves. -/

namespace Sys2Proof.Machine
open Sys2Proof.Safety

/-! ### Quotients and remainders that fit in a word -/

theorem toInt_ofInt_word {n : Int} (low : -32768 ≤ n) (high : n ≤ 32767) : (BitVec.ofInt 16 n).toInt = n :=
  BitVec.toInt_ofInt_eq_self (by decide) low (Int.lt_add_one_of_le high)

/-- A remainder is smaller in magnitude than the divisor (R207). -/
theorem toInt_ofInt_tmod (n : Int) {d : Word} (divisor : d.toInt ≠ 0) :
    (BitVec.ofInt 16 (n.tmod d.toInt)).toInt = n - n.tdiv d.toInt * d.toInt := by
  have smaller : (n.tmod d.toInt).natAbs < d.toInt.natAbs := by
    rw [Int.natAbs_tmod]
    exact Nat.mod_lt _ (Int.natAbs_pos.2 divisor)
  have low := d.le_toInt
  have high := d.toInt_lt
  rw [toInt_ofInt_word (by omega) (by omega), Int.tmod_def, mul_comm]

theorem toNat_ofNat_mod (n : Nat) {d : Word} (divisor : d.toNat ≠ 0) :
    (BitVec.ofNat 16 (n % d.toNat)).toNat = n % d.toNat :=
  Nat.mod_eq_of_lt ((Nat.mod_lt _ (Nat.pos_of_ne_zero divisor)).trans d.isLt)

theorem toNat_ofNat_div (n : Word) (d : Nat) : (BitVec.ofNat 16 (n.toNat / d)).toNat = n.toNat / d :=
  Nat.mod_eq_of_lt ((Nat.div_le_self ..).trans_lt n.isLt)

/-- A fraction below 1 has 16 bits after the point (R201). -/
theorem toNat_ofNat_fraction {n d : Nat} (fits : n < d) : (BitVec.ofNat 16 (n * 65536 / d)).toNat = n * 65536 / d :=
  Nat.mod_eq_of_lt (Nat.div_lt_of_lt_mul (Nat.mul_lt_mul_of_pos_right fits (by decide)))

/-- The one signed quotient of words that does not fit (R203). -/
theorem tdiv_word_overflow {n d : Word} (large : 32767 < n.toInt.tdiv d.toInt) : n.toInt = -32768 ∧ d.toInt = -1 := by
  have low := n.le_toInt
  have high := n.toInt_lt
  have magnitude : (n.toInt.tdiv d.toInt).natAbs = n.toInt.natAbs / d.toInt.natAbs := Int.natAbs_tdiv ..
  have unit : d.toInt.natAbs = 1 := by
    by_contra other
    have zero_or_two : d.toInt.natAbs = 0 ∨ 2 ≤ d.toInt.natAbs := by omega
    rcases zero_or_two with zero | two
    · rw [zero, Nat.div_zero] at magnitude
      omega
    · have half := Nat.div_le_div_left (a := n.toInt.natAbs) two (by decide)
      omega
  rcases Int.natAbs_eq_natAbs_iff.1 (unit.trans Int.natAbs_one.symm) with one | minusOne
  · rw [one, Int.tdiv_one] at large
    omega
  · rw [minusOne, Int.tdiv_neg, Int.tdiv_one] at large
    exact ⟨by omega, minusOne⟩

theorem tdiv_word_low (n d : Word) : -32768 ≤ n.toInt.tdiv d.toInt := by
  have magnitude := Int.natAbs_tdiv_le_natAbs n.toInt d.toInt
  have low := n.le_toInt
  have high := n.toInt_lt
  omega

/-! ### What the corner cases leave -/

/-- Freeing flags among N, Z, V, C leaves the other four (R9; log 9). -/
theorem ccrNZVC_freeFlags (s : State) {mask : Byte} (low : mask.toNat < 2 ^ 4) (n z v c : Bool) :
    ccrNZVC (s.freeFlags mask) n z v c = ccrNZVC s n z v c := by
  have kept (k : Nat) (h : 4 ≤ k) : (s.freeFlags mask).ccr.getLsbD k = s.ccr.getLsbD k :=
    freeFlags_bit s mask k (Nat.testBit_lt_two_pow (low.trans_le (Nat.pow_le_pow_right (by decide) h)))
  simp only [ccrNZVC, State.flagS, State.flagX, State.flagH, State.flagI, kept 4 (by decide), kept 5 (by decide),
    kept 6 (by decide), kept 7 (by decide)]

/-- N, Z and V read back from the register they were put in. -/
theorem flags_of_ccrNZVC {s t : State} {n z v c : Bool} (h : t.ccr = ccrNZVC s n z v c) :
    t.flagN = n ∧ t.flagZ = z ∧ t.flagV = v := by
  simp [State.flagN, State.flagZ, State.flagV, h, ccrNZVC]

theorem setV_setC_ccr (s : State) (v c : Bool) : ((s.setV v).setC c).ccr = ccrNZVC s s.flagN s.flagZ v c := by
  simp [ccrNZVC, State.flagS, State.flagX, State.flagH, State.flagI, State.flagN, State.flagZ, State.flagV]

/-- A zero divisor: C = 1, N, Z, V free (R207; log 9, 10). -/
def divByZero (s : State) : State := ((s.freeFlags 0x0E#8).setC true).spend 2

/-- An overflow, before the registers are written: V = 1, C = 0, N, Z free (R207; log 9). -/
def divOverflow (s : State) : State := (((s.freeFlags 0x0C#8).setV true).setC false).spend 2

/-- FDIV and IDIV without a quotient: X is `$FFFF`, D free, Z = 0 (R201, R202; log 10). -/
def saturatedX (s : State) (v c : Bool) : State :=
  { ((s.setZVC false v c).setD (Config.freeWord (s.draws + 1))).spend 2 with x := 0xFFFF#16 }

theorem divByZero_ccr {s t : State} (h : t.ccr = (divByZero s).ccr) :
    t.ccr = ccrNZVC s t.flagN t.flagZ t.flagV true := by
  have written : t.ccr = ccrNZVC s _ _ _ true := h.trans (ccrNZVC_freeFlags s (mask := 0x0E#8) (by decide) ..)
  obtain ⟨hn, hz, hv⟩ := flags_of_ccrNZVC written
  rw [hn, hz, hv, written]

theorem divOverflow_ccr {s t : State} (h : t.ccr = (divOverflow s).ccr) :
    t.ccr = ccrNZVC s t.flagN t.flagZ true false := by
  have written : t.ccr = ccrNZVC s _ _ true false :=
    h.trans ((setV_setC_ccr _ true false).trans (ccrNZVC_freeFlags s (mask := 0x0C#8) (by decide) ..))
  obtain ⟨hn, hz, -⟩ := flags_of_ccrNZVC written
  rw [hn, hz, written]

/-- EDIV and EDIVS by zero change the flags alone. -/
theorem divByZero_frame {s t : State} (h : t = divByZero s) :
    t = { s with draws := t.draws, ccr := ccrNZVC s t.flagN t.flagZ t.flagV true } := by
  rw [← divByZero_ccr ((congrArg State.ccr h).trans rfl), h]
  rfl

/-- IDIVS by zero frees X and D as well (R203). -/
theorem freeXD_divByZero_frame {s t : State} (h : t = freeXD s (divByZero s)) :
    t = { s with
      a := t.a, b := t.b, x := t.x, draws := t.draws, ccr := ccrNZVC s t.flagN t.flagZ t.flagV true } := by
  rw [← divByZero_ccr ((congrArg State.ccr h).trans rfl), h]
  rfl

/-- EDIV and EDIVS that overflow free Y and D (R196, R197). -/
theorem freeYD_divOverflow_frame {s t : State} (h : t = freeYD s (divOverflow s)) :
    t = { s with
      a := t.a, b := t.b, y := t.y, draws := t.draws, ccr := ccrNZVC s t.flagN t.flagZ true false } := by
  rw [← divOverflow_ccr ((congrArg State.ccr h).trans rfl), h]
  rfl

/-- IDIVS that overflows leaves `$8000` and 0 (R203). -/
theorem divOverflow_setX_frame {s t : State} (h : t = { (divOverflow s).setD 0 with x := 0x8000#16 }) :
    t = { s with
      a := 0, b := 0, x := 0x8000#16, draws := t.draws, ccr := ccrNZVC s t.flagN t.flagZ true false } := by
  rw [← divOverflow_ccr ((congrArg State.ccr h).trans rfl), h]
  rfl

theorem saturatedX_frame {s t : State} {v c : Bool} (h : t = saturatedX s v c) :
    t = { s with
      a := t.a, b := t.b, x := 0xFFFF#16, draws := t.draws, ccr := ccrNZVC s s.flagN false v c } := by
  rw [h]
  rfl

/-! ### What a division that fits leaves -/

/-- EDIV and EDIVS: the quotient in Y, the remainder in D, N and Z of the quotient. -/
def quotientY (s : State) (q r : Word) : State :=
  { s.setD r with y := q }.setNZVC (isNeg q) (isZero q) false false

/-- IDIVS: the quotient in X, the remainder in D, N and Z of the quotient. -/
def quotientX (s : State) (q r : Word) : State :=
  { s.setD r with x := q }.setNZVC (isNeg q) (isZero q) false false

/-- FDIV and IDIV: the same without N. -/
def quotientXKeepN (s : State) (q r : Word) : State :=
  { s.setD r with x := q }.setZVC (isZero q) false false

theorem quotientY_spec {s t : State} {q r : Word} (h : t = quotientY s q r) : t.y = q ∧ t.d = r ∧
    t = { s with a := t.a, b := t.b, y := t.y, ccr := ccrNZVC s (negative t.y) (zero t.y) false false } := by
  rw [← isNeg_eq, ← isZero_eq, h]
  exact ⟨rfl, s.d_setD r, rfl⟩

theorem quotientX_spec {s t : State} {q r : Word} (h : t = quotientX s q r) : t.x = q ∧ t.d = r ∧
    t = { s with a := t.a, b := t.b, x := t.x, ccr := ccrNZVC s (negative t.x) (zero t.x) false false } := by
  rw [← isNeg_eq, ← isZero_eq, h]
  exact ⟨rfl, s.d_setD r, rfl⟩

theorem quotientXKeepN_spec {s t : State} {q r : Word} (h : t = quotientXKeepN s q r) : t.x = q ∧ t.d = r ∧
    t = { s with a := t.a, b := t.b, x := t.x, ccr := ccrNZVC s s.flagN (zero t.x) false false } := by
  rw [← isZero_eq, h]
  exact ⟨rfl, s.d_setD r, rfl⟩

/-! ### The meanings, case by case -/

section Meanings

variable {s : State}

theorem execEdiv_zero (divisor : s.x.toNat = 0) : execEdiv s = .next (divByZero s) := if_pos divisor

theorem execEdiv_overflow (divisor : s.x.toNat ≠ 0) (large : 65536 ≤ s.yd.toNat / s.x.toNat) :
    execEdiv s = .next (freeYD s (divOverflow s)) := (if_neg divisor).trans (if_pos large)

theorem execEdiv_quotient (divisor : s.x.toNat ≠ 0) (fits : s.yd.toNat / s.x.toNat < 65536) :
    execEdiv s = .next (quotientY s (.ofNat 16 (s.yd.toNat / s.x.toNat)) (.ofNat 16 (s.yd.toNat % s.x.toNat))) :=
  (if_neg divisor).trans (if_neg (not_lt.2 (Nat.le_of_lt_succ fits)))

theorem execEdivs_zero (divisor : s.x.toInt = 0) : execEdivs s = .next (divByZero s) := if_pos divisor

theorem execEdivs_overflow (divisor : s.x.toInt ≠ 0)
    (large : s.yd.toInt.tdiv s.x.toInt < -32768 ∨ 32767 < s.yd.toInt.tdiv s.x.toInt) :
    execEdivs s = .next (freeYD s (divOverflow s)) := (if_neg divisor).trans (if_pos large.symm)

theorem execEdivs_quotient (divisor : s.x.toInt ≠ 0) (low : -32768 ≤ s.yd.toInt.tdiv s.x.toInt)
    (high : s.yd.toInt.tdiv s.x.toInt ≤ 32767) :
    execEdivs s =
      .next (quotientY s (.ofInt 16 (s.yd.toInt.tdiv s.x.toInt)) (.ofInt 16 (s.yd.toInt.tmod s.x.toInt))) :=
  (if_neg divisor).trans (if_neg (not_or.2 ⟨not_lt.2 high, not_lt.2 low⟩))

theorem execFdiv_overflow (large : s.x.toNat ≤ s.d.toNat) :
    execFdiv s = .next (saturatedX s true (decide (s.x.toNat = 0))) := if_pos large

theorem execFdiv_quotient (fits : s.d.toNat < s.x.toNat) :
    execFdiv s = .next (quotientXKeepN s (.ofNat 16 (s.d.toNat * 65536 / s.x.toNat))
      (.ofNat 16 (s.d.toNat * 65536 % s.x.toNat))) := if_neg (not_le.2 fits)

theorem execIdiv_zero (divisor : s.x.toNat = 0) : execIdiv s = .next (saturatedX s false true) := if_pos divisor

theorem execIdiv_quotient (divisor : s.x.toNat ≠ 0) :
    execIdiv s =
      .next (quotientXKeepN s (.ofNat 16 (s.d.toNat / s.x.toNat)) (.ofNat 16 (s.d.toNat % s.x.toNat))) :=
  if_neg divisor

theorem execIdivs_zero (divisor : s.x.toInt = 0) : execIdivs s = .next (freeXD s (divByZero s)) := if_pos divisor

theorem execIdivs_overflow (dividend : s.d.toInt = -32768) (divisor : s.x.toInt = -1) :
    execIdivs s = .next { (divOverflow s).setD 0 with x := 0x8000#16 } := by
  simp only [execIdivs, dividend, divisor]
  rfl

theorem execIdivs_quotient (divisor : s.x.toInt ≠ 0) (fits : s.d.toInt.tdiv s.x.toInt ≤ 32767) :
    execIdivs s =
      .next (quotientX s (.ofInt 16 (s.d.toInt.tdiv s.x.toInt)) (.ofInt 16 (s.d.toInt.tmod s.x.toInt))) :=
  (if_neg divisor).trans (if_neg (not_lt.2 fits))

end Meanings

/-! ### The statements -/

/-- Settles O42: each division by its cases, a zero divisor, an overflow and a quotient that fits. -/
theorem longDivisions : Obligations.LongDivisions := by
  intro s
  refine ⟨?ediv, ?edivs⟩
  case ediv =>
    rw [← s.yd_toNat]
    by_cases divisor : s.x.toNat = 0
    · exact ⟨_, execEdiv_zero divisor, fun h => absurd divisor h, fun h => absurd divisor h, fun _ => divByZero_frame rfl⟩
    by_cases fits : s.yd.toNat / s.x.toNat < 65536
    · obtain ⟨quotient, remainder, frame⟩ := quotientY_spec (s := s) rfl
      refine ⟨_, execEdiv_quotient divisor fits, fun _ _ => ⟨?_, ?_, frame⟩, fun _ large => absurd fits (not_lt.2 large),
        fun h => absurd h divisor⟩
      · rw [quotient]; exact Nat.mod_eq_of_lt fits
      · rw [remainder]; exact toNat_ofNat_mod _ divisor
    · exact ⟨_, execEdiv_overflow divisor (not_lt.1 fits), fun _ h => absurd h fits, fun _ _ => freeYD_divOverflow_frame rfl,
        fun h => absurd h divisor⟩
  case edivs =>
    rw [← s.yd_toInt]
    by_cases divisor : s.x.toInt = 0
    · exact ⟨_, execEdivs_zero divisor, fun h => absurd divisor h, fun h => absurd divisor h, fun _ => divByZero_frame rfl⟩
    by_cases large : s.yd.toInt.tdiv s.x.toInt < -32768 ∨ 32767 < s.yd.toInt.tdiv s.x.toInt
    · exact ⟨_, execEdivs_overflow divisor large, fun _ low high => absurd large (not_or.2 ⟨not_lt.2 low, not_lt.2 high⟩),
        fun _ _ => freeYD_divOverflow_frame rfl, fun h => absurd h divisor⟩
    · obtain ⟨low, high⟩ : -32768 ≤ s.yd.toInt.tdiv s.x.toInt ∧ s.yd.toInt.tdiv s.x.toInt ≤ 32767 := by omega
      obtain ⟨quotient, remainder, frame⟩ := quotientY_spec (s := s) rfl
      refine ⟨_, execEdivs_quotient divisor low high, fun _ _ _ => ⟨?_, ?_, frame⟩, fun _ h => absurd h large,
        fun h => absurd h divisor⟩
      · rw [quotient]; exact toInt_ofInt_word low high
      · rw [remainder]; exact toInt_ofInt_tmod _ divisor

/-- Settles O43: FDIV by whether the quotient is below 1, IDIV and IDIVS by the divisor and, for IDIVS, -32768 over -1. -/
theorem shortDivisions : Obligations.ShortDivisions := by
  intro s
  refine ⟨?fdiv, ?idiv, ?idivs⟩
  case fdiv =>
    by_cases fits : s.d.toNat < s.x.toNat
    · obtain ⟨quotient, remainder, frame⟩ := quotientXKeepN_spec (s := s) rfl
      refine ⟨_, execFdiv_quotient fits, fun _ => ⟨?_, ?_, frame⟩, fun large => absurd fits (not_lt.2 large)⟩
      · rw [quotient]; exact toNat_ofNat_fraction fits
      · rw [remainder]; exact toNat_ofNat_mod _ (Nat.ne_zero_of_lt fits)
    · exact ⟨_, execFdiv_overflow (not_lt.1 fits), fun h => absurd h fits, fun _ => saturatedX_frame rfl⟩
  case idiv =>
    by_cases divisor : s.x.toNat = 0
    · exact ⟨_, execIdiv_zero divisor, fun h => absurd divisor h, fun _ => saturatedX_frame rfl⟩
    · obtain ⟨quotient, remainder, frame⟩ := quotientXKeepN_spec (s := s) rfl
      refine ⟨_, execIdiv_quotient divisor, fun _ => ⟨?_, ?_, frame⟩, fun h => absurd h divisor⟩
      · rw [quotient]; exact toNat_ofNat_div ..
      · rw [remainder]; exact toNat_ofNat_mod _ divisor
  case idivs =>
    by_cases divisor : s.x.toInt = 0
    · exact ⟨_, execIdivs_zero divisor, fun h => absurd divisor h, fun h => absurd divisor h,
        fun _ => freeXD_divByZero_frame rfl⟩
    by_cases fits : s.d.toInt.tdiv s.x.toInt ≤ 32767
    · obtain ⟨quotient, remainder, frame⟩ := quotientX_spec (s := s) rfl
      refine ⟨_, execIdivs_quotient divisor fits, fun _ _ => ⟨?_, ?_, frame⟩, fun _ large => absurd fits (not_le.2 large),
        fun h => absurd h divisor⟩
      · rw [quotient]; exact toInt_ofInt_word (tdiv_word_low ..) fits
      · rw [remainder]; exact toInt_ofInt_tmod _ divisor
    · obtain ⟨dividend, minusOne⟩ := tdiv_word_overflow (not_le.1 fits)
      exact ⟨_, execIdivs_overflow dividend minusOne, fun _ h => absurd h fits,
        fun _ _ => ⟨dividend, minusOne, divOverflow_setX_frame rfl⟩, fun h => absurd h divisor⟩

end Sys2Proof.Machine
end

section
/-! PROOFS. Minimum, maximum and table interpolation (43_minmax_table.md R220 to R229; 48_lost_rows.md R448, R449, R475; log 1,
27): each shared operation in the terms of Sys2Proof.Safety, said once, then the statements. -/

namespace Sys2Proof.Machine
open Sys2Proof.Safety

/-! ### The selected value -/

/-- Into A: the flags are those of the compare, which reads A before it is replaced (R228). -/
theorem selectA_eq (f : Byte → Byte → Byte) (i : Idx) (s : State) :
    selectA f i s = .next { idxUpdate s i with
      a := f s.a (s.read8 (idxEa s s.pc i)), ccr := ccrSub8 s s.a (s.read8 (idxEa s s.pc i)) 0 } := by
  have kept (v : Byte) : ((idxUpdate s i).setAcc .a v).ccr = s.ccr := by simp
  simp only [selectA]
  rw [sub8_flags', ccrSub8_congr (kept _)]
  rfl

/-- Into D. -/
theorem selectD_eq (f : Word → Word → Word) (i : Idx) (s : State) :
    selectD f i s = .next { idxUpdate s i with
      a := hiByte (f s.d (s.read16 (idxEa s s.pc i))), b := loByte (f s.d (s.read16 (idxEa s s.pc i)))
      ccr := ccrSub16 s s.d (s.read16 (idxEa s s.pc i)) } := by
  have kept (v : Word) : ((idxUpdate s i).setD v).ccr = s.ccr := by simp
  simp only [selectD]
  rw [sub16_flags, ccrSub16_congr (kept _)]
  rfl

/-- Into memory: one byte is written at the address that was read, whichever value it is (R227, R229). -/
theorem selectMem8_stores (f : Byte → Byte → Byte) (i : Idx) (s : State) :
    ∃ t, selectMem8 f i s = .next t ∧
      StoresByte s t (idxEa s s.pc i) (f s.a (s.read8 (idxEa s s.pc i))) ∧
      t = { idxUpdate s i with
        ccr := ccrSub8 s s.a (s.read8 (idxEa s s.pc i)) 0, mem := t.mem, stale := t.stale } := by
  refine ⟨_, rfl, storesByte_of (idxUpdate_mem s i) rfl, ?frame⟩
  case frame =>
    rw [sub8_flags', ccrSub8_congr ((State.write8_ccr ..).trans (idxUpdate_ccr s i))]
    rfl

/-- Into memory: one word. -/
theorem selectMem16_stores (f : Word → Word → Word) (i : Idx) (s : State) :
    ∃ t, selectMem16 f i s = .next t ∧
      StoresWord s t (idxEa s s.pc i) (f s.d (s.read16 (idxEa s s.pc i))) ∧
      t = { idxUpdate s i with
        ccr := ccrSub16 s s.d (s.read16 (idxEa s s.pc i)), mem := t.mem, stale := t.stale } := by
  refine ⟨_, rfl, storesWord_of (idxUpdate_mem s i) rfl, ?frame⟩
  case frame =>
    rw [sub16_flags, ccrSub16_congr ((State.write16_ccr ..).trans (idxUpdate_ccr s i))]
    rfl

/-- Settles O44: each is one of the four selections with the greater or the lesser value. -/
theorem minMax : Obligations.MinMax := by
  intro i s
  refine ⟨?maxa, ?mina, ?emaxd, ?emind, ?maxm, ?minm, ?emaxm, ?eminm⟩
  case maxa => rw [← maxOf_eq]; exact selectA_eq maxOf i s
  case mina => rw [← minOf_eq]; exact selectA_eq minOf i s
  case emaxd => rw [← maxOf_eq]; exact selectD_eq maxOf i s
  case emind => rw [← minOf_eq]; exact selectD_eq minOf i s
  case maxm => rw [← maxOf_eq']; exact selectMem8_stores maxOf i s
  case minm => rw [← minOf_eq']; exact selectMem8_stores minOf i s
  case emaxm => rw [← maxOf_eq']; exact selectMem16_stores maxOf i s
  case eminm => rw [← minOf_eq']; exact selectMem16_stores minOf i s

/-! ### Interpolation -/

/-- The default rounding is toward minus infinity (D24; log 27). -/
theorem interpolate_eq (f y1 y2 : Nat) : interpolate f y1 y2 = y1 + (f : Int) * (y2 - y1) / 256 := by
  rw [← Int.fdiv_eq_ediv_of_nonneg _ (by decide)]
  rfl

/-- The interpolated value is a weighted mean of the two entries. -/
theorem interpolate_eq_mean {f : Nat} (fraction : f ≤ 256) (y1 y2 : Nat) :
    interpolate f y1 y2 = (((256 - f) * y1 + f * y2) / 256 : Nat) := by
  rw [interpolate_eq, add_comm, ← Int.add_mul_ediv_left _ _ (by decide)]
  push_cast [fraction]
  congr 1
  ring

/-- So it lies between the two entries, and the word holds it (R224). -/
theorem toNat_ofInt_interpolate {w : Nat} (f : Byte) (y1 y2 : BitVec w) :
    ((BitVec.ofInt w (interpolate f.toNat y1.toNat y2.toNat)).toNat : Int) =
      y1.toNat + (f.toNat : Int) * (y2.toNat - y1.toNat) / 256 := by
  have fraction : f.toNat ≤ 256 := f.isLt.le
  have fits : ((256 - f.toNat) * y1.toNat + f.toNat * y2.toNat) / 256 < 2 ^ w := by
    apply Nat.div_lt_of_lt_mul
    calc (256 - f.toNat) * y1.toNat + f.toNat * y2.toNat
      _ < (256 - f.toNat) * 2 ^ w + f.toNat * 2 ^ w :=
        add_lt_add_of_lt_of_le (Nat.mul_lt_mul_of_pos_left y1.isLt (Nat.sub_pos_of_lt f.isLt))
          (Nat.mul_le_mul_left _ y2.isLt.le)
      _ = 256 * 2 ^ w := by rw [← Nat.add_mul, Nat.sub_add_cancel fraction]
  rw [← interpolate_eq, interpolate_eq_mean fraction, BitVec.ofInt_natCast, BitVec.toNat_ofNat, Nat.mod_eq_of_lt fits]

/-- N and Z of `r`, V kept, C left free (R224; log 9). -/
def flagsFreeC {w : Nat} (s : State) (r : BitVec w) : State :=
  let t := (s.freeFlags 0x01#8).spend 1
  t.setNZC (isNeg r) (isZero r) t.flagC

@[simp] theorem flagsFreeC_a {w : Nat} (s : State) (r : BitVec w) : (flagsFreeC s r).a = s.a := rfl
@[simp] theorem flagsFreeC_d {w : Nat} (s : State) (r : BitVec w) : (flagsFreeC s r).d = s.d := rfl

theorem flagsFreeC_ccr {w : Nat} {s u : State} (kept : u.ccr = s.ccr) (r : BitVec w) :
    (flagsFreeC u r).ccr = ccrNZVC s (negative r) (zero r) s.flagV (flagsFreeC u r).flagC := by
  have keptV : (u.freeFlags 0x01#8).flagV = s.flagV :=
    (freeFlags_bit u 0x01#8 1 rfl).trans (congrArg (BitVec.getLsbD · 1) kept)
  have written : (flagsFreeC u r).ccr = ccrNZVC s (negative r) (zero r) s.flagV (u.freeFlags 0x01#8).flagC := by
    rw [← isNeg_eq, ← isZero_eq, ← keptV, ← ccrNZVC_congr kept, ← ccrNZVC_freeFlags u (mask := 0x01#8) (by decide)]
    rfl
  have carry : (flagsFreeC u r).flagC = (u.freeFlags 0x01#8).flagC := by simp [State.flagC, written, ccrNZVC]
  rw [carry, written]

theorem flagsFreeC_frame {w : Nat} {s u : State} (kept : u.ccr = s.ccr) (r : BitVec w) : flagsFreeC u r = { u with
    draws := (flagsFreeC u r).draws, ccr := ccrNZVC s (negative r) (zero r) s.flagV (flagsFreeC u r).flagC } := by
  rw [← flagsFreeC_ccr kept]
  rfl

/-- ETBL's value, for D (R224). -/
def etblValue (i : Idx) (s : State) : Word :=
  BitVec.ofInt 16 (interpolate s.b.toNat (s.read16 (idxEa s s.pc i)).toNat (s.read16 (idxEa s s.pc i + 2)).toNat)

/-- TBL's value, for A (R475). -/
def tblValue (i : Idx) (s : State) : Byte :=
  BitVec.ofInt 8 (interpolate s.b.toNat (s.read8 (idxEa s s.pc i)).toNat (s.read8 (idxEa s s.pc i + 1)).toNat)

theorem execEtbl_eq (i : Idx) (s : State) :
    execEtbl i s = .next (flagsFreeC ((idxUpdate s i).setD (etblValue i s)) (etblValue i s)) := rfl

theorem execTbl_eq (i : Idx) (s : State) :
    execTbl i s = .next (flagsFreeC ((idxUpdate s i).setAcc .a (tblValue i s)) (tblValue i s)) := rfl

/-- Settles O45: the value by `toNat_ofInt_interpolate`, the rest by `flagsFreeC_frame`. -/
theorem tableInterpolation : Obligations.TableInterpolation := by
  intro i s
  refine ⟨⟨_, execEtbl_eq i s, ?etbl⟩, ⟨_, execTbl_eq i s, ?tbl⟩⟩
  case etbl =>
    have kept : ((idxUpdate s i).setD (etblValue i s)).ccr = s.ccr := by simp
    rw [flagsFreeC_d, State.d_setD]
    exact ⟨toNat_ofInt_interpolate .., flagsFreeC_frame kept _⟩
  case tbl =>
    have kept : ((idxUpdate s i).setAcc .a (tblValue i s)).ccr = s.ccr := by simp
    have result : ((idxUpdate s i).setAcc .a (tblValue i s)).a = tblValue i s := rfl
    rw [flagsFreeC_a, result]
    exact ⟨toNat_ofInt_interpolate .., flagsFreeC_frame kept _⟩

end Sys2Proof.Machine
end

section
/-! PROOFS. Shifts and rotates (44_shift_rotate.md R240 to R256; 48_lost_rows.md R411 to R414; log 1, 11): what a left and a
right move by one bit leave in the flags, said once for every result; D likewise. -/

namespace Sys2Proof.Machine
open Sys2Proof.Safety

/-! ### The bit shifted out and V = N xor C (R255) -/

theorem flagsShift_of_kept {s t : State} (kept : t.ccr = s.ccr) {w : Nat} (r : BitVec w) (c : Bool) :
    t.flagsShift r c = { t with ccr := ccrShift s r c } := by
  rw [flagsShift_eq, ccrShift_congr kept]

/-- To the left, bit 7 moves into C, whatever fills bit 0. -/
theorem unaryNumbers_left {f : Byte → Byte} (s : State) {old r : Byte} (result : f old = r) :
    UnaryNumbers f flagsLeft s old r (negative r != decide (128 ≤ old.toNat)) (decide (128 ≤ old.toNat)) := by
  refine ⟨result, fun t kept => ?_⟩
  rw [flagsLeft, (shiftL_eq old).2]
  exact flagsShift_of_kept kept r _

/-- To the right, bit 0 moves into C, whatever fills bit 7. -/
theorem unaryNumbers_right {f : Byte → Byte} (s : State) {old r : Byte} (result : f old = r) :
    UnaryNumbers f flagsRight s old r (negative r != decide (old.toNat % 2 = 1)) (decide (old.toNat % 2 = 1)) := by
  refine ⟨result, fun t kept => ?_⟩
  rw [flagsRight, (shiftR_eq old).2]
  exact flagsShift_of_kept kept r _

/-! ### D -/

/-- LSLD and ASLD in numbers (R243). -/
theorem shiftLeftD_eq (s : State) :
    shiftLeftD s = { s.setD (BitVec.ofNat 16 (2 * s.d.toNat)) with
      ccr := ccrShift s (BitVec.ofNat 16 (2 * s.d.toNat)) (decide (32768 ≤ s.d.toNat)) } := by
  obtain ⟨result, carry⟩ := shiftL_word s.d
  rw [shiftLeftD, result, carry, flagsShift_of_kept (State.setD_ccr ..)]

/-- LSRD in numbers (R247). -/
theorem execLsrd_eq (s : State) :
    execLsrd s = .next { s.setD (BitVec.ofNat 16 (s.d.toNat / 2)) with
      ccr := ccrShift s (BitVec.ofNat 16 (s.d.toNat / 2)) (decide (s.d.toNat % 2 = 1)) } := by
  obtain ⟨result, carry⟩ := shiftR_word s.d
  rw [execLsrd, result, carry, flagsShift_of_kept (State.setD_ccr ..)]

/-! ### The statement -/

/-- Settles O39: each operation on a byte in numbers, on memory, A and B; on D by `shiftLeftD_eq` and `execLsrd_eq`. -/
theorem shifts : Obligations.Shifts := by
  have lsl (s : State) (old : Byte) := unaryNumbers_left s (shiftL_eq old).1
  have lsr (s : State) (old : Byte) := unaryNumbers_right s (shiftR_eq old).1
  have asr (s : State) (old : Byte) := unaryNumbers_right s (shiftAR_eq old)
  have rol (s : State) (old : Byte) := unaryNumbers_left s (rotL_eq s.flagC old)
  have ror (s : State) (old : Byte) := unaryNumbers_right s (rotR_eq s.flagC old)
  refine ⟨fun m s => ?memory, fun s => ⟨?a, ?b, ?lsld, ?asld, ?lsrd⟩⟩
  case memory =>
    exact ⟨(lsl s _).mem, (lsl s _).mem, (lsr s _).mem, (asr s _).mem, (rol s _).mem, (ror s _).mem⟩
  case a =>
    exact ⟨(lsl s _).acc (q := .a), (lsl s _).acc (q := .a), (lsr s _).acc (q := .a), (asr s _).acc (q := .a),
      (rol s _).acc (q := .a), (ror s _).acc (q := .a)⟩
  case b =>
    exact ⟨(lsl s _).acc (q := .b), (lsl s _).acc (q := .b), (lsr s _).acc (q := .b), (asr s _).acc (q := .b),
      (rol s _).acc (q := .b), (ror s _).acc (q := .b)⟩
  case lsld | asld => exact congrArg Host.Outcome.next (shiftLeftD_eq s)
  case lsrd => exact execLsrd_eq s

end Sys2Proof.Machine
end

section
/-! PROOFS. Transfers, exchanges and effective addresses (45_transfer_stack_store.md R260 to R264, R280 to R286;
48_lost_rows.md R463, R469, R470, R476; log 1, 14, 17): what a register reads after a write to it and to another, then the
statements. -/

namespace Sys2Proof.Machine
open Sys2Proof.Safety

/-! ### What a write of a register leaves -/

section Registers

@[simp] theorem readR8_spend (s : State) (k : Nat) (r : R8) : readR8 (s.spend k) r = readR8 s r := by cases r <;> rfl

@[simp] theorem readR16_spend (s : State) (k : Nat) (r : R16) : readR16 (s.spend k) r = readR16 s r := by
  cases r <;> rfl

/-- CCR receives what a load of it leaves, over any state that kept it (10_state.md R34). -/
theorem readR8_writeR8_same {s u : State} {r : R8} (kept : r = .ccr → u.ccr = s.ccr) (v : Byte) :
    readR8 (writeR8 u r v) r = if r = .ccr then ccrLoaded s v else v := by
  cases r with
  | a | b => rfl
  | ccr => exact (loadCcr_ccr u v).trans (ccrLoaded_congr (kept rfl) v)

theorem readR8_writeR8_of_ne (s : State) {q r : R8} (other : r ≠ q) (v : Byte) :
    readR8 (writeR8 s q v) r = readR8 s r := by
  revert other
  cases q <;> cases r <;> simp [readR8, writeR8]

theorem readR16_writeR16_same (s : State) (r : R16) (v : Word) : readR16 (writeR16 s r v) r = v := by
  cases r with
  | d => exact s.d_setD v
  | x | y | sp => rfl

theorem readR16_writeR16_of_ne (s : State) {q r : R16} (other : r ≠ q) (v : Word) :
    readR16 (writeR16 s q v) r = readR16 s r := by
  revert other
  cases q <;> cases r <;> simp [readR16, writeR16, State.d]

/-- Of the 16-bit registers only D has halves among the 8-bit ones (10_state.md R22). -/
theorem readR16_writeR8 (s : State) {r : R16} (notD : r ≠ .d) (q : R8) (v : Byte) :
    readR16 (writeR8 s q v) r = readR16 s r := by
  cases r with
  | d => exact absurd rfl notD
  | x => exact writeR8_x s q v
  | y => exact writeR8_y s q v
  | sp => exact writeR8_sp s q v

/-- D has no half in CCR, the other 16-bit registers have none at all. -/
theorem readR8_writeR16 (s : State) {q : R16} {r : R8} (notHalf : q = .d → r = .ccr) (v : Word) :
    readR8 (writeR16 s q v) r = readR8 s r := by
  cases q with
  | d => rw [notHalf rfl]; rfl
  | x | y | sp => cases r <;> rfl

/-- Writing back what a register holds changes nothing, CCR.X included. -/
theorem writeR8_readR8 (s : State) (r : R8) : writeR8 s r (readR8 s r) = s := by
  cases r with
  | a | b => rfl
  | ccr =>
    have own : ccrLoaded s s.ccr = s.ccr := by
      refine Eq.trans ?_ (ccrOf_flags s)
      rw [← Bool.and_self s.flagX]
      rfl
    exact (loadCcr_eq s s.ccr).trans (by rw [own])

/-- No write sets X (10_state.md R34). -/
theorem flagX_writeR8 {s : State} (clear : s.flagX = false) (r : R8) (v : Byte) : (writeR8 s r v).flagX = false := by
  cases r with
  | a | b => exact clear
  | ccr => rw [writeR8, State.flagX, loadCcr_ccr, ccrLoaded, clear]; simp

@[simp] theorem flagX_writeR16 (s : State) (r : R16) (v : Word) : (writeR16 s r v).flagX = s.flagX :=
  congrArg (BitVec.getLsbD · 6) (writeR16_ccr s r v)

/-- A write of an 8-bit register changes A, B and CCR alone. -/
theorem writeR8_frame {s u : State} (r : R8) (v : Byte) (frame : u = { s with a := u.a, b := u.b, ccr := u.ccr }) :
    writeR8 u r v = { s with a := (writeR8 u r v).a, b := (writeR8 u r v).b, ccr := (writeR8 u r v).ccr } := by
  rw [frame]
  ext1 <;> simp

theorem writeR16_frame {s u : State} (r : R16) (v : Word)
    (frame : u = { s with a := u.a, b := u.b, x := u.x, y := u.y, sp := u.sp }) :
    writeR16 u r v = { s with
      a := (writeR16 u r v).a, b := (writeR16 u r v).b, x := (writeR16 u r v).x, y := (writeR16 u r v).y
      sp := (writeR16 u r v).sp } := by
  rw [frame]
  ext1 <;> simp

end Registers

/-! ### Exchanges (R260) -/

/-- Between 8-bit registers; exchanging a register with itself leaves it. -/
theorem exchange_r8_reads (p q : R8) (s : State) :
    readR8 (exchange (.r8 p) (.r8 q) s) q = (if q = .ccr then ccrLoaded s (readR8 s p) else readR8 s p) ∧
    readR8 (exchange (.r8 p) (.r8 q) s) p = (if p = .ccr then ccrLoaded s (readR8 s q) else readR8 s q) ∧
    ∀ r, r ≠ p → r ≠ q → readR8 (exchange (.r8 p) (.r8 q) s) r = readR8 s r := by
  by_cases same : p = q
  · subst same
    have stays : exchange (.r8 p) (.r8 p) s = s := by rw [exchange, writeR8_readR8, writeR8_readR8]
    have value := readR8_writeR8_same (s := s) (r := p) (fun _ => rfl) (readR8 s p)
    rw [writeR8_readR8] at value
    rw [stays]
    exact ⟨value, value, fun _ _ _ => rfl⟩
  · refine ⟨readR8_writeR8_same (fun isCcr => ?kept) _, ?first, fun r notP notQ => ?others⟩
    case kept =>
      subst isCcr
      exact readR8_writeR8_of_ne s (Ne.symm same) _
    case first =>
      exact (readR8_writeR8_of_ne _ same _).trans (readR8_writeR8_same (fun _ => rfl) _)
    case others => exact (readR8_writeR8_of_ne _ notQ _).trans (readR8_writeR8_of_ne s notP _)

/-- Between 16-bit registers. -/
theorem exchange_r16_reads (p q : R16) (s : State) :
    readR16 (exchange (.r16 p) (.r16 q) s) q = readR16 s p ∧ readR16 (exchange (.r16 p) (.r16 q) s) p = readR16 s q ∧
    ∀ r, r ≠ p → r ≠ q → readR16 (exchange (.r16 p) (.r16 q) s) r = readR16 s r := by
  have second : readR16 (exchange (.r16 p) (.r16 q) s) q = readR16 s p := readR16_writeR16_same ..
  refine ⟨second, ?first, fun r notP notQ => ?others⟩
  case first =>
    by_cases same : p = q
    · subst same
      exact second
    · exact (readR16_writeR16_of_ne _ same _).trans (readR16_writeR16_same ..)
  case others => exact (readR16_writeR16_of_ne _ notQ _).trans (readR16_writeR16_of_ne s notP _)

/-- Both exchanges of mixed sizes write the 16-bit register, then the 8-bit one (log 17). -/
def writeMixed (s : State) (wide : R16) (w : Word) (narrow : R8) (v : Byte) : State :=
  writeR8 (writeR16 (s.spend 1) wide w) narrow v

section Mixed

variable {s : State} {wide : R16} {w : Word} {narrow : R8} {v : Byte}

theorem exchange_r8_r16 (narrow : R8) (wide : R16) (s : State) :
    exchange (.r8 narrow) (.r16 wide) s =
      writeMixed s wide (joinBytes 0 (readR8 s narrow)) narrow (Config.freeByte s.draws) := rfl

theorem exchange_r16_r8 (wide : R16) (narrow : R8) (s : State) :
    exchange (.r16 wide) (.r8 narrow) s =
      writeMixed s wide (joinBytes (Config.freeByte s.draws) (readR8 s narrow)) narrow (loByte (readR16 s wide)) := rfl

/-- The 8-bit register is written last. -/
theorem writeMixed_narrow : readR8 (writeMixed s wide w narrow v) narrow = if narrow = .ccr then ccrLoaded s v else v :=
  readR8_writeR8_same (fun _ => writeR16_ccr ..) v

/-- A 16-bit register without halves keeps the word. -/
theorem writeMixed_wide (notD : wide ≠ .d) : readR16 (writeMixed s wide w narrow v) wide = w :=
  (readR16_writeR8 _ notD ..).trans (readR16_writeR16_same ..)

/-- The high half of D is the word's, unless A is the 8-bit register. -/
theorem writeMixed_a (notA : narrow ≠ .a) : (writeMixed s .d w narrow v).a = hiByte w :=
  readR8_writeR8_of_ne ((s.spend 1).setD w) (r := .a) notA.symm v

/-- The low half of D is the word's, unless B is the 8-bit register. -/
theorem writeMixed_b (notB : narrow ≠ .b) : (writeMixed s .d w narrow v).b = loByte w :=
  readR8_writeR8_of_ne ((s.spend 1).setD w) (r := .b) notB.symm v

theorem writeMixed_flagX (clear : s.flagX = false) : (writeMixed s wide w narrow v).flagX = false := by
  refine flagX_writeR8 ?_ narrow v
  rw [flagX_writeR16]
  exact clear

theorem writeMixed_readR8 {r : R8} (other : r ≠ narrow) (notHalf : wide = .d → r = .ccr) :
    readR8 (writeMixed s wide w narrow v) r = readR8 s r := by
  rw [writeMixed, readR8_writeR8_of_ne _ other, readR8_writeR16 _ notHalf, readR8_spend]

theorem writeMixed_readR16 {r : R16} (notD : r ≠ .d) (other : r ≠ wide) :
    readR16 (writeMixed s wide w narrow v) r = readR16 s r := by
  rw [writeMixed, readR16_writeR8 _ notD, readR16_writeR16_of_ne _ other, readR16_spend]

theorem writeMixed_frame : writeMixed s wide w narrow v = { s with
    a := (writeMixed s wide w narrow v).a, b := (writeMixed s wide w narrow v).b
    ccr := (writeMixed s wide w narrow v).ccr, x := (writeMixed s wide w narrow v).x
    y := (writeMixed s wide w narrow v).y, sp := (writeMixed s wide w narrow v).sp
    draws := (writeMixed s wide w narrow v).draws } := by
  ext1 <;> simp [writeMixed]

end Mixed

/-! ### Effective addresses (R286; log 14) -/

/-- LEAX, LEAY and LEAS as one operation on the destination register. -/
def loadEa (r : AutoReg) (i : Idx) (s : State) : Answer :=
  let t := idxUpdate s i
  .next (setAuto (hazardSpend t r (idxPostAuto i)) r (hazardWrite s t r (idxPostAuto i) (idxEa s s.pc i)))

theorem exec_leax (i : Idx) (s : State) : exec (.leax i) s = loadEa .x i s := rfl

theorem exec_leay (i : Idx) (s : State) : exec (.leay i) s = loadEa .y i s := rfl

theorem exec_leas (i : Idx) (s : State) : exec (.leas i) s = loadEa .sp i s := rfl

/-- A destination the operand does not post-modify receives the address, whatever else the operand updates. -/
theorem loadEa_of_ne {r : AutoReg} {i : Idx} (other : idxPostAuto i ≠ some r) (s : State) :
    loadEa r i s = .next (setAuto (idxUpdate s i) r (idxEa s s.pc i)) := by
  simp only [loadEa]
  rw [hazardWrite_ne other, hazardSpend_ne other]

/-- The post-modified register is the only one the operand updates. -/
theorem setAuto_idxUpdate_of_postAuto {r : AutoReg} {i : Idx} (same : idxPostAuto i = some r) (s : State) (v : Word) :
    setAuto (idxUpdate s i) r v = setAuto s r v := by
  cases i with
  | off5 | acc | off9 | off16 | indD | ind16 => cases same
  | auto q post n =>
    cases post with
    | false => cases same
    | true =>
      cases same
      cases r <;> rfl

/-- A post-modified destination receives the address or the modified value (R547; log 14). -/
theorem loadEa_of_eq {r : AutoReg} {i : Idx} (same : idxPostAuto i = some r) (s : State) :
    ∃ t, loadEa r i s = .next t ∧ (autoVal t r = idxEa s s.pc i ∨ autoVal t r = autoVal (idxUpdate s i) r) ∧
      t = { setAuto s r (autoVal t r) with draws := t.draws } := by
  have written (v : Word) : setAuto ((idxUpdate s i).spend 1) r v = { setAuto s r v with draws := s.draws + 1 } := by
    rw [← setAuto_idxUpdate_of_postAuto same s v, ← idxUpdate_draws s i]
    cases r <;> rfl
  simp only [loadEa]
  rw [same, hazardSpend, if_pos rfl]
  refine ⟨_, rfl, ?value, ?frame⟩
  case value =>
    rw [autoVal_setAuto]
    exact hazardWrite_or s (idxUpdate s i) r _
  case frame =>
    rw [autoVal_setAuto, written]

/-! ### The statements -/

/-- Settles O49: the encoder evaluated; each effect is, by definition, the copy or the exchange. -/
theorem sourceTransfers : Obligations.SourceTransfers :=
  fun _ => ⟨⟨rfl, rfl⟩, ⟨rfl, rfl⟩, ⟨rfl, rfl⟩, ⟨rfl, rfl⟩, ⟨rfl, rfl⟩, ⟨rfl, rfl⟩⟩

/-- Settles O50: each TFR and SEX is one write of a register, each EXG two. -/
theorem transfers : Obligations.Transfers := by
  refine ⟨fun p q s => ?tfr8, fun p q s => ⟨rfl, ?sex⟩, fun p q s => ?tfr16to8, fun p q s => ?tfr16, fun p q s => ?exg8,
    fun p q s => ?exg16, fun p q s => ?exg8with16, fun p q s => ?exg16with8, fun s => ⟨?tab, ?tba⟩⟩
  case tfr8 =>
    exact ⟨_, rfl, readR8_writeR8_same (fun _ => rfl) _, fun r other => readR8_writeR8_of_ne s other _,
      writeR8_frame q _ rfl⟩
  case sex =>
    refine ⟨_, rfl, ?value, fun r other => readR16_writeR16_of_ne s other _, writeR16_frame q _ rfl⟩
    case value =>
      rw [readR16_writeR16_same]
      exact BitVec.toInt_signExtend_of_le (by decide)
  case tfr16to8 =>
    rw [← loByte_eq_ofNat]
    exact ⟨_, rfl, readR8_writeR8_same (fun _ => rfl) _, fun r other => readR8_writeR8_of_ne s other _,
      writeR8_frame q _ rfl⟩
  case tfr16 =>
    exact ⟨_, rfl, readR16_writeR16_same .., fun r other => readR16_writeR16_of_ne s other _, writeR16_frame q _ rfl⟩
  case exg8 =>
    obtain ⟨second, first, others⟩ := exchange_r8_reads p q s
    exact ⟨_, rfl, second, first, others, writeR8_frame q _ (writeR8_frame p _ rfl)⟩
  case exg16 =>
    obtain ⟨second, first, others⟩ := exchange_r16_reads p q s
    exact ⟨_, rfl, second, first, others, writeR16_frame q _ (writeR16_frame p _ rfl)⟩
  case exg8with16 =>
    refine ⟨_, congrArg Host.Outcome.next (exchange_r8_r16 ..), fun notD => ?wide, ?low, ?high,
      writeMixed_flagX, fun _ => writeMixed_readR8, fun _ => writeMixed_readR16, writeMixed_frame⟩
    case wide =>
      rw [writeMixed_wide notD, joinBytes_toNat]
      simp
    case low =>
      rintro rfl notB
      rw [writeMixed_b notB, loByte_joinBytes]
    case high =>
      rintro rfl notA
      rw [writeMixed_a notA, hiByte_joinBytes]
  case exg16with8 =>
    rw [← loByte_eq_ofNat]
    refine ⟨_, congrArg Host.Outcome.next (exchange_r16_r8 ..), writeMixed_narrow, fun notD => ?wide, ?low,
      writeMixed_flagX, fun _ => writeMixed_readR8, fun _ => writeMixed_readR16, writeMixed_frame⟩
    case wide =>
      rw [writeMixed_wide notD, joinBytes_toNat]
      omega
    case low =>
      rintro rfl notB
      rw [writeMixed_b notB, loByte_joinBytes]
  case tab | tba => exact congrArg Host.Outcome.next (logicFlags ..)

/-- Settles O51: each is `loadEa` of its register, by whether the operand post-modifies it. -/
theorem loadEffectiveAddress : Obligations.LoadEffectiveAddress := by
  intro i s
  simp only [exec_leax, exec_leay, exec_leas]
  exact ⟨(loadEa_of_ne · s), (loadEa_of_ne · s), (loadEa_of_ne · s), (loadEa_of_eq · s), (loadEa_of_eq · s),
    (loadEa_of_eq · s)⟩

end Sys2Proof.Machine
end

section
/-! PROOFS. Stores, pushes and pulls (45_transfer_stack_store.md R265 to R279, R287 to R289; 48_lost_rows.md R464 to R466; log 1,
15): what each shared operation leaves in memory and in the registers, then the statements. -/

namespace Sys2Proof.Machine
open Sys2Proof.Safety

/-! ### Stores (R289) -/

/-- STAA and STAB. -/
theorem storeAcc_stores (r : Acc) (m : Addr) (s : State) :
    ∃ t, storeAcc r m s = .next t ∧ StoresByte s t (addrEa s s.pc m) (s.acc r) ∧
      t = { addrUpdate s m with ccr := ccrLogic s (s.acc r), mem := t.mem, stale := t.stale } := by
  refine ⟨_, rfl, storesByte_of (addrUpdate_mem s m) rfl, ?frame⟩
  case frame =>
    rw [logicFlags, ccrLogic_congr ((State.write8_ccr ..).trans (addrUpdate_ccr s m))]
    rfl

/-- The store of a word with its flags, over any state that kept memory and the condition codes. -/
theorem flagsLogic_write16_stores {s u : State} (mem : u.mem = s.mem) (ccr : u.ccr = s.ccr) (ea v : Word) :
    StoresWord s ((u.write16 ea v).flagsLogic v) ea v ∧ (u.write16 ea v).flagsLogic v = { u with
      ccr := ccrLogic s v, mem := (u.write16 ea v).mem, stale := (u.write16 ea v).stale } := by
  refine ⟨storesWord_of mem rfl, ?frame⟩
  case frame =>
    rw [logicFlags, ccrLogic_congr ((State.write16_ccr ..).trans ccr)]
    rfl

/-- STD. -/
theorem execStd_stores (m : Addr) (s : State) :
    ∃ t, execStd m s = .next t ∧ StoresWord s t (addrEa s s.pc m) s.d ∧
      t = { addrUpdate s m with ccr := ccrLogic s s.d, mem := t.mem, stale := t.stale } := by
  obtain ⟨stores, frame⟩ := flagsLogic_write16_stores (addrUpdate_mem s m) (addrUpdate_ccr s m) (addrEa s s.pc m) s.d
  exact ⟨_, rfl, stores, frame⟩

/-- A store of an index register or SP that the operand leaves alone. -/
theorem storeAuto_of_ne {r : AutoReg} {m : Addr} (other : addrAuto m ≠ some r) (s : State) :
    ∃ t, storeAuto r m s = .next t ∧ StoresWord s t (addrEa s s.pc m) (autoVal s r) ∧
      t = { addrUpdate s m with ccr := ccrLogic s (autoVal s r), mem := t.mem, stale := t.stale } := by
  obtain ⟨stores, frame⟩ :=
    flagsLogic_write16_stores (addrUpdate_mem s m) (addrUpdate_ccr s m) (addrEa s s.pc m) (autoVal s r)
  simp only [storeAuto]
  rw [hazardVal_ne other, hazardSpend_ne other]
  exact ⟨_, rfl, stores, frame⟩

/-- A store of the register the operand auto-modifies: of its old or its new value (R547; log 15). -/
theorem storeAuto_of_eq {r : AutoReg} {m : Addr} (same : addrAuto m = some r) (s : State) :
    ∃ t, storeAuto r m s = .next t ∧
      ((StoresWord s t (addrEa s s.pc m) (autoVal s r) ∧ t.ccr = ccrLogic s (autoVal s r)) ∨
        (StoresWord s t (addrEa s s.pc m) (autoVal (addrUpdate s m) r) ∧
          t.ccr = ccrLogic s (autoVal (addrUpdate s m) r))) ∧
      t = { addrUpdate s m with ccr := t.ccr, mem := t.mem, stale := t.stale, draws := t.draws } := by
  have spent (v : Word) := flagsLogic_write16_stores (s := s) (u := (addrUpdate s m).spend 1) (addrUpdate_mem s m)
    (addrUpdate_ccr s m) (addrEa s s.pc m) v
  simp only [storeAuto]
  rw [same, hazardSpend, if_pos rfl]
  refine ⟨_, rfl, ?value, ?frame⟩
  case value =>
    obtain old | new := hazardVal_or s (addrUpdate s m) r
    · rw [old]
      obtain ⟨stores, frame⟩ := spent (autoVal s r)
      exact .inl ⟨stores, congrArg State.ccr frame⟩
    · rw [new]
      obtain ⟨stores, frame⟩ := spent (autoVal (addrUpdate s m) r)
      exact .inr ⟨stores, congrArg State.ccr frame⟩
  case frame => rfl

/-! ### Pushes (R287) -/

theorem push8_stores (s : State) (v : Byte) :
    ∃ t, (.next (s.push8 v) : Answer) = .next t ∧ StoresByte s t (s.sp - 1) v ∧
      t = { s with sp := s.sp - 1, mem := t.mem, stale := t.stale } :=
  ⟨_, rfl, State.read8_push8 s v, rfl⟩

theorem push16_stores (s : State) (v : Word) :
    ∃ t, (.next (s.push16 v) : Answer) = .next t ∧ StoresWord s t (s.sp - 2) v ∧
      t = { s with sp := s.sp - 2, mem := t.mem, stale := t.stale } :=
  ⟨_, rfl, storesWord_of (u := { s with sp := s.sp - 2 }) rfl rfl, rfl⟩

end Sys2Proof.Machine

namespace Sys2Proof
open Sys2Proof.Machine

/-! ### The statements -/

/-- Settles O53: A and B by `storeAcc`, D by `execStd_stores`, X, Y and SP by whether the operand moves the register. -/
theorem stores : Obligations.Stores := by
  intro m s
  exact ⟨storeAcc_stores .a m s, storeAcc_stores .b m s, execStd_stores m s,
    (storeAuto_of_ne · s), (storeAuto_of_ne · s), (storeAuto_of_ne · s),
    (storeAuto_of_eq · s), (storeAuto_of_eq · s), (storeAuto_of_eq · s)⟩

/-- Settles O55: each is `push8` or `push16` of its register. -/
theorem pushes : Obligations.Pushes := by
  intro s
  exact ⟨⟨rfl, push8_stores s s.a⟩, ⟨rfl, push8_stores s s.b⟩, ⟨rfl, push8_stores s s.ccr⟩, ⟨rfl, push16_stores s s.d⟩,
    ⟨rfl, push16_stores s s.x⟩, ⟨rfl, push16_stores s s.y⟩⟩

/-- Settles O56: PULC is a load of CCR, PULD splits the word it reads; the others are plain reads by definition. -/
theorem pulls : Obligations.Pulls := by
  intro s
  refine ⟨⟨rfl, rfl⟩, ⟨rfl, rfl⟩, ⟨rfl, ?pulc⟩, ⟨rfl, ?puld⟩, ⟨rfl, rfl⟩, ⟨rfl, rfl⟩⟩
  case pulc => exact congrArg Host.Outcome.next (loadCcr_eq (s.drop 1) (s.read8 s.sp))
  case puld =>
    have high : hiByte s.top16 = s.read8 s.sp := hiByte_joinBytes ..
    have low : loByte s.top16 = s.read8 (s.sp + 1) := loByte_joinBytes ..
    rw [← high, ← low]
    rfl

end Sys2Proof
end

section
/-! PROOFS. Calls, returns, exceptions, wait and stop (46_call_return_system.md R300 to R308; 48_lost_rows.md R439, R440, R456;
log 1, 13, 16, 30, 37): what a link leaves in memory and in the registers, what a return reads back, then the statements. -/

namespace Sys2Proof.Machine
open Sys2Proof.Safety

/-! ### What an operand leaves of SP and of the free values -/

theorem idxUpdate_sp_of_ne {i : Idx} (other : idxAuto i ≠ some .sp) (s : State) : (idxUpdate s i).sp = s.sp := by
  cases i with
  | auto r post n =>
    cases r with
    | x | y => rfl
    | sp => exact absurd rfl other
  | off5 | acc | off9 | off16 | indD | ind16 => rfl

theorem addrUpdate_sp_of_ne {m : Addr} (other : addrAuto m ≠ some .sp) (s : State) : (addrUpdate s m).sp = s.sp := by
  cases m with
  | dir | ext => rfl
  | idx i => exact idxUpdate_sp_of_ne other s

theorem idxUpdate_spend (s : State) (k : Nat) (i : Idx) : idxUpdate (s.spend k) i = (idxUpdate s i).spend k := by
  cases i with
  | auto r post n => cases r <;> rfl
  | off5 | acc | off9 | off16 | indD | ind16 => rfl

/-- In a row with trailing bytes the operand makes its usual update; only a free value may be used up besides (log 13). -/
theorem trailingUpdate_idx_frame (s : State) (i : Idx) :
    trailingUpdate s (.idx i) = { idxUpdate s i with draws := (trailingUpdate s (.idx i)).draws } := by
  cases pcBase : addrUsesPc (.idx i) with
  | false => rw [trailingUpdate, pcBase]; rfl
  | true =>
    have spent : trailingUpdate s (.idx i) = (idxUpdate s i).spend 1 := by
      rw [trailingUpdate, pcBase]
      exact idxUpdate_spend s 1 i
    rw [spent]
    rfl

theorem trailingEa_idx_of_not_usesPc {i : Idx} (notPc : idxUsesPc i = false) (s : State) :
    trailingEa s (.idx i) = idxEa s s.pc i := by
  rw [trailingEa, addrUsesPc, notPc]
  rfl

/-! ### The link of a call (R300, R308; log 16) -/

section Links

variable {s t : State} {auto : Option AutoReg}

theorem linkState_sp_of_ne (other : auto ≠ some .sp) : (linkState s t auto).sp = s.sp := hazardVal_ne other

theorem linkState_sp_or (same : auto = some .sp) :
    (linkState s t auto).sp = s.sp ∨ (linkState s t auto).sp = t.sp := by
  subst same
  exact hazardVal_or s t .sp

theorem linkState_draws_of_ne (other : auto ≠ some .sp) : (linkState s t auto).draws = t.draws := by
  rw [linkState, hazardSpend_ne other]

@[simp] theorem linkState_mem : (linkState s t auto).mem = t.mem := hazardSpend_mem ..

theorem linkShort_stores (mem : t.mem = s.mem) :
    StoresWord s (linkShort s t auto) ((linkState s t auto).sp - 2) s.pc :=
  have kept : (linkState s t auto).mem = s.mem := linkState_mem.trans mem
  storesWord_of (u := { linkState s t auto with sp := (linkState s t auto).sp - 2 }) kept rfl

theorem linkFar_stores (mem : t.mem = s.mem) :
    StoresCall s (linkFar s t auto) ((linkState s t auto).sp - 3) s.ppage s.pc :=
  storesCall_of (linkState_mem.trans mem) rfl

theorem linkShort_frame : linkShort s t auto = { t with
    sp := t.sp - 2
    mem := (linkShort s t auto).mem
    stale := (linkShort s t auto).stale
    draws := (linkState s t auto).draws } := by
  ext1 <;> simp [linkShort, linkState]

theorem linkFar_frame : linkFar s t auto = { t with
    sp := t.sp - 3
    mem := (linkFar s t auto).mem
    stale := (linkFar s t auto).stale
    draws := (linkState s t auto).draws } := by
  ext1 <;> simp [linkFar, linkState]

end Links

/-! ### Calls -/

/-- JSR (R440). -/
theorem execJsr_stores (m : Addr) (s : State) :
    ∃ t, execJsr m s = .next t ∧
      (addrAuto m ≠ some .sp → StoresWord s t (s.sp - 2) s.pc ∧ t.draws = s.draws) ∧
      (addrAuto m = some .sp → StoresWord s t (s.sp - 2) s.pc ∨ StoresWord s t ((addrUpdate s m).sp - 2) s.pc) ∧
      t = { addrUpdate s m with
        sp := (addrUpdate s m).sp - 2
        pc := addrEa s s.pc m
        mem := t.mem
        stale := []
        draws := t.draws } := by
  have stores := linkShort_stores (auto := addrAuto m) (addrUpdate_mem s m)
  refine ⟨_, rfl, fun other => ⟨?plain, ?draws⟩, fun same => ?hazard, ?frame⟩
  case plain => rwa [linkState_sp_of_ne other] at stores
  case draws =>
    calc (linkShort s (addrUpdate s m) (addrAuto m)).draws
      _ = (linkState s (addrUpdate s m) (addrAuto m)).draws := by rw [linkShort_frame]
      _ = s.draws := (linkState_draws_of_ne other).trans (addrUpdate_draws s m)
  case hazard =>
    exact (linkState_sp_or (s := s) (t := addrUpdate s m) same).imp (fun old => by rwa [old] at stores)
      (fun new => by rwa [new] at stores)
  case frame =>
    rw [linkShort_frame]
    rfl

/-- The far link of a call whose operand leaves every register alone. -/
theorem linkFar_none_stores (s : State) (page : Byte) (target : Word) :
    ∃ t, (.next ({ linkFar s s none with ppage := page }.goto target) : Answer) = .next t ∧
      StoresCall s t (s.sp - 3) s.ppage s.pc ∧
      t = { s with sp := s.sp - 3, ppage := page, pc := target, mem := t.mem, stale := [] } :=
  ⟨_, rfl, linkFar_stores (s := s) (t := s) (auto := none) rfl, rfl⟩

/-- CALL, direct indexed (R300). -/
theorem execCall_idx_stores (i : Idx) (page : Byte) (s : State) :
    ∃ t, execCall (.idx i page) s = .next t ∧
      (idxAuto i ≠ some .sp → StoresCall s t (s.sp - 3) s.ppage s.pc) ∧
      (idxAuto i = some .sp →
        StoresCall s t (s.sp - 3) s.ppage s.pc ∨ StoresCall s t ((idxUpdate s i).sp - 3) s.ppage s.pc) ∧
      (idxUsesPc i = false → t.pc = idxEa s s.pc i) ∧
      t = { idxUpdate s i with
        sp := (idxUpdate s i).sp - 3
        ppage := page
        pc := t.pc
        mem := t.mem
        stale := []
        draws := t.draws } := by
  have stores := linkFar_stores (auto := idxAuto i) (trailingUpdate_mem s (.idx i))
  have sp : (trailingUpdate s (.idx i)).sp = (idxUpdate s i).sp := by rw [trailingUpdate_idx_frame]
  refine ⟨_, rfl, fun other => ?plain, fun same => ?hazard, fun notPc => trailingEa_idx_of_not_usesPc notPc s, ?frame⟩
  case plain => rwa [linkState_sp_of_ne other] at stores
  case hazard =>
    exact (linkState_sp_or (s := s) (t := trailingUpdate s (.idx i)) same).imp (fun old => by rwa [old] at stores)
      (fun new => by rwa [new, sp] at stores)
  case frame =>
    rw [linkFar_frame, trailingUpdate_idx_frame]
    rfl

/-! ### Returns read the link back (R302, R304) -/

theorem exec_rts_of_storesWord {s t : State} {rtn : Word} (stores : StoresWord s t (s.sp - 2) rtn)
    (sp : t.sp = s.sp - 2) : ∃ u, exec .rts t = .next u ∧ u.pc = rtn ∧ u.sp = s.sp := by
  refine ⟨_, rfl, ?pc, ?sp⟩
  case pc =>
    rw [← sp] at stores
    exact read16_of_storesWord stores
  case sp =>
    calc t.sp + 2
      _ = s.sp - 2 + 2 := by rw [sp]
      _ = s.sp := BitVec.sub_add_cancel ..

theorem exec_rtc_of_storesCall {s t : State} {page : Byte} {rtn : Word} (stores : StoresCall s t (s.sp - 3) page rtn)
    (sp : t.sp = s.sp - 3) : ∃ u, exec .rtc t = .next u ∧ u.pc = rtn ∧ u.sp = s.sp ∧ u.ppage = page := by
  rw [← sp] at stores
  obtain ⟨top, address⟩ := reads_of_storesCall stores
  refine ⟨_, rfl, ?pc, ?sp, top⟩
  case pc => exact (State.read16_congr rfl (t.sp + 1)).trans address
  case sp =>
    calc t.sp + 3
      _ = s.sp - 3 + 3 := by rw [sp]
      _ = s.sp := BitVec.sub_add_cancel ..

/-! ### Exceptions -/

/-- RTI's net effect (R303). -/
theorem State.returnFromException_eq (s : State) : s.returnFromException = { s with
    ccr := ccrLoaded s (s.read8 s.sp)
    b := s.read8 (s.sp + 1)
    a := s.read8 (s.sp + 2)
    x := s.read16 (s.sp + 3)
    y := s.read16 (s.sp + 5)
    pc := s.read16 (s.sp + 7)
    sp := s.sp + 9
    stale := [] } := by
  rw [State.returnFromException, loadCcr_eq]
  rfl

/-- The word at an offset from SP is its two bytes. -/
theorem State.read16_add (s : State) (ea k : Word) :
    s.read16 (ea + k) = joinBytes (s.read8 (ea + k)) (s.read8 (ea + (k + 1))) := by
  rw [State.read16, BitVec.add_assoc]

theorem State.stackFrame_frame (s : State) (rtn : Word) : s.stackFrame rtn =
    { s with sp := s.sp - 9, mem := (s.stackFrame rtn).mem, stale := (s.stackFrame rtn).stale } := by
  ext1 <;> simp

/-- WAI and STOP: the frame is stacked and the run state changes (R305, R307). -/
theorem stackFrame_run_stores (s : State) (run : RunState) :
    ∃ t, (.next { s.stackFrame s.pc with run := run } : Answer) = .next t ∧ StoresFrame s t s.pc ∧
      t = { s with sp := s.sp - 9, run := run, mem := t.mem, stale := t.stale } := by
  refine ⟨_, rfl, storesFrame_stackFrame s s.pc, ?frame⟩
  case frame =>
    rw [State.stackFrame_frame]

end Sys2Proof.Machine

namespace Sys2Proof
open Sys2Proof.Machine Sys2Proof.Safety

/-! ### The statements -/

/-- Settles O23: JSR and the indexed CALL by their own lemmas, the CALLs without a register update by `linkFar_none_stores`. -/
theorem jumpsAndCalls : Obligations.JumpsAndCalls :=
  ⟨fun m s => ⟨rfl, rfl, execJsr_stores m s⟩, fun hhll page s => linkFar_none_stores s page hhll,
    execCall_idx_stores, fun i s => linkFar_none_stores s (s.read8 (idxPtr s s.pc i + 2)) (s.read16 (idxPtr s s.pc i))⟩

/-- Settles O24: both are their definition; the address of RTC is read under the page just pulled (R302, R304). -/
theorem returns : Obligations.Returns := fun _ => ⟨⟨rfl, rfl⟩, rfl, rfl⟩

/-- Settles O25: each call leaves its link at the SP it ends with, where the return reads it. -/
theorem callThenReturn : Obligations.CallThenReturn := by
  obtain ⟨near, callExt, callIdx, callInd⟩ := jumpsAndCalls
  refine ⟨fun rr s => ?bsr, fun m s other => ?jsr, fun hhll page s => ?ext, fun i page s other => ?idx, fun i s => ?ind⟩
  case bsr =>
    obtain ⟨-, t, call, stores, frame⟩ := branchToSubroutine rr s
    obtain ⟨u, ret, back⟩ := exec_rts_of_storesWord stores (congrArg State.sp frame)
    exact ⟨t, u, call, ret, back⟩
  case jsr =>
    obtain ⟨-, -, t, call, stores, -, frame⟩ := near m s
    have sp : t.sp = (addrUpdate s m).sp - 2 := congrArg State.sp frame
    rw [addrUpdate_sp_of_ne other] at sp
    obtain ⟨u, ret, back⟩ := exec_rts_of_storesWord (stores other).left sp
    exact ⟨t, u, call, ret, back⟩
  case ext =>
    obtain ⟨t, call, stores, frame⟩ := callExt hhll page s
    obtain ⟨u, ret, back⟩ := exec_rtc_of_storesCall stores (congrArg State.sp frame)
    exact ⟨t, u, call, ret, back⟩
  case idx =>
    obtain ⟨t, call, stores, -, -, frame⟩ := callIdx i page s
    have sp : t.sp = (idxUpdate s i).sp - 3 := congrArg State.sp frame
    rw [idxUpdate_sp_of_ne other] at sp
    obtain ⟨u, ret, back⟩ := exec_rtc_of_storesCall (stores other) sp
    exact ⟨t, u, call, ret, back⟩
  case ind =>
    obtain ⟨t, call, stores, frame⟩ := callInd i s
    obtain ⟨u, ret, back⟩ := exec_rtc_of_storesCall stores (congrArg State.sp frame)
    exact ⟨t, u, call, ret, back⟩

/-- Settles O26: RTI is `returnFromException`, each word it reads taken as two bytes. -/
theorem returnFromInterrupt : Obligations.ReturnFromInterrupt := by
  intro s
  refine ⟨rfl, ?effect⟩
  case effect =>
    calc exec .rti s
      _ = .next s.returnFromException := rfl
      _ = _ := by
        rw [State.returnFromException_eq, State.read16_add s s.sp 3, State.read16_add s s.sp 5, State.read16_add s s.sp 7]
        rfl

/-- Settles O27: TRAP is `takeException` through its vector, which does not set X. -/
theorem trapEntry : Obligations.TrapEntry := fun _ s => ⟨rfl, _, rfl, entered_takeException s Config.vecTrap s.pc false⟩

/-- Settles O29: WAI, and STOP with S = 0, stack the frame and change the run state. -/
theorem waitAndStop : Obligations.WaitAndStop := by
  intro s
  refine ⟨⟨rfl, stackFrame_run_stores s .waiting⟩, rfl, fun disabled => ?noOperation, fun enabled => ?stops⟩
  case noOperation => exact if_pos disabled
  case stops =>
    have stop : exec .stop s = .next { s.stackFrame s.pc with run := .stopped } := if_neg (by simp [enabled])
    rw [stop]
    exact stackFrame_run_stores s .stopped

end Sys2Proof
end

section
/-! PROOFS. The X mask is one way (60_exceptions.md R506, 10_state.md R34; log 39): a flag write leaves X, a load of CCR cannot
set it, and an entry sets it for XIRQ alone. -/

namespace Sys2Proof.Machine
open Sys2Proof.Safety

/-- X is clear in `t` where it is clear in `s`. -/
def XStaysClear (s t : State) : Prop := s.flagX = false → t.flagX = false

/-! ### What an update leaves of X -/

section Updates

variable (s : State)

theorem flagX_of_ccr {s t : State} (ccr : t.ccr = s.ccr) : t.flagX = s.flagX := congrArg (BitVec.getLsbD · 6) ccr

theorem flagX_of_ccrNZVC {s t : State} {n z v c : Bool} (ccr : t.ccr = ccrNZVC s n z v c) : t.flagX = s.flagX := by
  simp [State.flagX, ccr, ccrNZVC]

@[simp] theorem flagX_setHNZVC (h n z v c : Bool) : (s.setHNZVC h n z v c).flagX = s.flagX := by simp [State.flagX]

@[simp] theorem flagX_setIMask (i : Bool) : (s.setIMask i).flagX = s.flagX := by simp [State.flagX]

@[simp] theorem flagX_setV (v : Bool) : (s.setV v).flagX = s.flagX := flagX_setHNZVC ..

@[simp] theorem flagX_setC (c : Bool) : (s.setC c).flagX = s.flagX := flagX_setHNZVC ..

@[simp] theorem flagX_spend (k : Nat) : (s.spend k).flagX = s.flagX := rfl

theorem flagX_freeFlags {mask : Byte} (other : mask.getLsbD 6 = false) : (s.freeFlags mask).flagX = s.flagX :=
  freeFlags_bit s mask 6 other

@[simp] theorem ccr_branchIf (c : Bool) (off : Word) : (branchIf s c off).ccr = s.ccr := by cases c <;> rfl

@[simp] theorem ccr_cntrAdd (d : Word) (c : Cntr) : (cntrAdd s d c).ccr = s.ccr := by cases c <;> rfl

@[simp] theorem ccr_ruleOutput (t : State) (ea : Word) : (ruleOutput s t ea).ccr = t.ccr := by
  unfold ruleOutput; split <;> rfl

@[simp] theorem ccr_moveDstUpdate (srcIdx : Bool) (m : Addr) : (moveDstUpdate s srcIdx m).ccr = s.ccr := by
  simp [moveDstUpdate]

theorem flagX_wavFinish (sop : BitVec 32) (sow : Word) : (wavFinish sop sow s).flagX = s.flagX := by
  have free : (s.freeFlags 0x2F#8).flagX = s.flagX := flagX_freeFlags s rfl
  unfold wavFinish
  dsimp only
  split
  · exact free
  · exact (flagX_setHNZVC ..).trans free

end Updates

/-! ### Answers that keep X clear -/

section Leads

variable {s t u : State}

theorem leads_sameX (same : t.flagX = s.flagX) : Leads XStaysClear s (.next t) :=
  leads_next fun clear => same.trans clear

/-- An instruction that does not write CCR. -/
theorem leads_sameCcr (ccr : t.ccr = s.ccr) : Leads XStaysClear s (.next t) := leads_sameX (flagX_of_ccr ccr)

/-- Every update of H, N, Z, V and C is a `setHNZVC`. -/
theorem leads_flags (kept : u.flagX = s.flagX) {h n z v c : Bool} :
    Leads XStaysClear s (.next (u.setHNZVC h n z v c)) :=
  leads_sameX ((flagX_setHNZVC ..).trans kept)

/-- A load of CCR cannot set X (10_state.md R34). -/
theorem leads_loadCcr {v : Byte} (ccr : t.ccr = ccrLoaded s v) : Leads XStaysClear s (.next t) :=
  leads_next fun clear => by rw [State.flagX, ccr, ccrLoaded, clear]; simp

end Leads

section Operations

variable (s : State)

theorem andCcr_xStaysClear (v : Byte) : Leads XStaysClear s (.next (s.andCcr v)) :=
  leads_next fun clear => by rw [andCcr_eq, State.flagX, clear]; simp

theorem orCcr_xStaysClear (v : Byte) : Leads XStaysClear s (.next (s.orCcr v)) := by
  rw [orCcr_eq]
  exact leads_sameX (by simp [State.flagX])

theorem transfer_xStaysClear (r1 r2 : XReg) : Leads XStaysClear s (.next (transfer r1 r2 s)) := by
  cases r2 with
  | r8 q => cases r1 <;> exact leads_next fun clear => flagX_writeR8 clear q _
  | r16 q => cases r1 <;> exact leads_sameX (flagX_writeR16 s q _)

theorem exchange_xStaysClear (r1 r2 : XReg) : Leads XStaysClear s (.next (exchange r1 r2 s)) := by
  refine leads_next fun clear => ?_
  cases r1 with
  | r8 p =>
    cases r2 with
    | r8 q => exact flagX_writeR8 (flagX_writeR8 clear p _) q _
    | r16 q => exact writeMixed_flagX clear
  | r16 p =>
    cases r2 with
    | r8 q => exact writeMixed_flagX clear
    | r16 q => exact (flagX_writeR16 ..).trans ((flagX_writeR16 s p _).trans clear)

theorem execDaa_xStaysClear : Leads XStaysClear s (execDaa s) := by
  have free : (s.freeFlags 0x03#8).flagX = s.flagX := flagX_freeFlags s rfl
  unfold execDaa
  dsimp only
  split
  · exact leads_sameX ((flagX_setHNZVC ..).trans free)
  · exact leads_sameX ((flagX_setHNZVC ..).trans free)

theorem execRev_xStaysClear : Leads XStaysClear s (execRev s) := by
  have free : (s.freeFlags 0x2D#8).flagX = s.flagX := flagX_freeFlags s rfl
  exact leads_ite (leads_sameX free) (leads_ite (leads_sameX ((flagX_setHNZVC ..).trans free))
    (leads_ite (leads_sameX ((flagX_of_ccr (ccr_ruleOutput ..)).trans free)) (leads_sameX free)))

theorem execRevw_xStaysClear : Leads XStaysClear s (execRevw s) := by
  have free : (s.freeFlags 0x2C#8).flagX = s.flagX := flagX_freeFlags s rfl
  exact leads_ite (leads_sameX free) (leads_ite
    (leads_ite (leads_sameX ((flagX_setHNZVC ..).trans free))
      (leads_ite (leads_sameX ((flagX_setHNZVC ..).trans free)) (leads_sameX ((flagX_setHNZVC ..).trans free))))
    (leads_ite (leads_sameX ((flagX_of_ccr (ccr_ruleOutput ..)).trans free)) (leads_sameX free)))

end Operations

theorem flagX_divByZero (s : State) : (divByZero s).flagX = s.flagX := by
  simp [divByZero, flagX_freeFlags s (mask := 0x0E#8) rfl]

theorem flagX_divOverflow (s : State) : (divOverflow s).flagX = s.flagX := by
  simp [divOverflow, flagX_freeFlags s (mask := 0x0C#8) rfl]

/-! ### Entries -/

/-- Only an XIRQ sets X on entry (60_exceptions.md R503, R506). -/
theorem takeException_flagX (s : State) (vector rtn : Word) (setsX : Bool) :
    (s.takeException vector rtn setsX).flagX = (s.flagX || setsX) := by
  rw [(entered_takeException s vector rtn setsX).2]
  simp [State.flagX]

theorem deliver_flagX {src : IntSource} (interrupt : isReset src = false) (notXirq : src ≠ .xirq) (rtn : Word) (s : State) :
    (deliver src rtn s).flagX = s.flagX := by
  rw [deliver, if_neg (by simp [interrupt]), takeException_flagX, beq_false_of_ne notXirq, Bool.or_false]

theorem wake_flagX {src : IntSource} (interrupt : isReset src = false) (notXirq : src ≠ .xirq) (s : State) :
    (wake src s).flagX = s.flagX := by
  rw [wake_eq s src interrupt, beq_false_of_ne notXirq]
  simp [State.flagX]

section Requests

variable {s : State} (maskable : ∀ r ∈ s.requests, r ≠ .xirq ∧ isReset r = false)
include maskable

theorem maskable_of_candidate {src : IntSource} (enabled : src ∈ candidates s) : src ≠ .xirq ∧ isReset src = false :=
  maskable src (List.mem_filter.1 enabled).1

theorem wavRun_xStaysClear (sop : BitVec 32) (sow : Word) : Leads XStaysClear s (wavRun sop sow s) := by
  have ends : Leads XStaysClear s (.next (wavFinish sop sow s)) := leads_sameX (flagX_wavFinish ..)
  unfold wavRun
  split
  · exact ends
  · next c cs cands =>
    obtain ⟨notXirq, interrupt⟩ := maskable_of_candidate maskable (cands ▸ (highest_spec cs c).1)
    refine leads_ite ends (leads_ite ?_ (leads_sameX ?_))
    · exact leads_sameX (deliver_flagX interrupt notXirq _ _)
    · refine (deliver_flagX interrupt notXirq _ _).trans ?_
      exact (flagX_of_ccr (by simp [wavPush])).trans (flagX_freeFlags s (mask := 0x2F#8) rfl)

/-! ### Every instruction -/

theorem exec_xStaysClear (i : Instr) : Leads XStaysClear s (exec i s) := by
  cases i with
  -- CCR is not written
  | bra | brn | bls | bhs | blo | bne | bvc | bvs | bpl | bmi | blt | ble | bcc | bcs | beq | bge | bgt | bhi
  | lbra | lbrn | lbhi | lbls | lbcc | lbcs | lbne | lbeq | lbvc | lbvs | lbpl | lbmi | lbge | lblt | lbgt | lble | lbhs
  | lblo => exact leads_sameCcr (ccr_branchIf ..)
  | brclr | brset | ibeq | ibne | dbeq | dbne | tbeq | tbne | leax | leay | leas | jmp | bsr | wai | bgnd | sex =>
    exact leads_sameCcr (by simp)
  | jsr => exact leads_sameCcr (by simp [linkShort, linkState])
  | call d => cases d <;> exact leads_sameCcr (by simp [linkFar, linkState])
  | movb src | movw src => cases src <;> exact leads_sameCcr (by simp)
  | psha | pshb | pshc | pshd | pshx | pshy | pula | pulb | puld | pulx | puly | rts | rtc | nop
  | tsx | tsy | txs | tys | xgdx | xgdy | tpa | abx | aby | des | ins => exact leads_sameCcr rfl
  | stop => exact leads_ite (leads_sameCcr rfl) (leads_sameCcr (by simp))
  -- other flags are written
  | anda | andb | eora | eorb | oraa | orab | bita | bitb | cmpa | cmpb | cpd | cps | cpx | cpy
  | adca | adcb | adda | addb | sbca | sbcb | suba | subb | addd | subd | ldaa | ldab | ldd | lds | ldx | ldy | tst
  | emaxd | emind | maxa | mina
  | bset | bclr | clr | staa | stab | maxm | minm | dec | inc | neg | com | lsl | asl | rol | lsr | asr | ror
  | std | sts | stx | sty | emaxm | eminm | emacs => exact leads_flags (flagX_of_ccr (by simp))
  | tab | tba | clc | clv | sec | sev | cba | clra | clrb | tsta | tstb | dex | dey | inx | iny | aba | sba
  | deca | decb | inca | incb | nega | negb | coma | comb | lsla | lslb | asla | aslb | lsra | lsrb | asra | asrb
  | rola | rolb | rora | rorb | lsld | asld | lsrd | mul | emul | emuls => exact leads_flags (by rfl)
  | cli | sei => exact leads_sameX (flagX_setIMask ..)
  | etbl | tbl => exact leads_sameX (flagX_of_ccrNZVC (flagsFreeC_ccr (by simp) _))
  | daa => exact execDaa_xStaysClear s
  | fdiv | idiv => exact leads_ite (leads_sameX (flagX_setHNZVC ..)) (leads_flags (by rfl))
  | ediv | edivs | idivs =>
    exact leads_ite (leads_sameX (flagX_divByZero s))
      (leads_ite (leads_sameX (flagX_divOverflow s)) (leads_flags (by rfl)))
  | mem => exact leads_sameX (flagX_freeFlags s rfl)
  | rev => exact execRev_xStaysClear s
  | revw => exact execRevw_xStaysClear s
  -- CCR is written
  | andcc => exact andCcr_xStaysClear ..
  | orcc => exact orCcr_xStaysClear ..
  | tap | pulc | rti => exact leads_loadCcr (loadCcr_ccr ..)
  | tfr => exact transfer_xStaysClear ..
  | exg => exact exchange_xStaysClear ..
  -- entries
  | trap | swi => exact leads_sameX ((takeException_flagX ..).trans (Bool.or_false _))
  | wav => exact wavRun_xStaysClear maskable ..
  | wavr =>
    refine ⟨fun t h => ?_⟩
    exact (wavRun_xStaysClear (s := s.drop 6) maskable _ _).rel_of_next t h

theorem runInstr_xStaysClear : Leads XStaysClear s (runInstr s) := by
  refine ⟨fun t h clear => ?_⟩
  obtain ⟨i, rest, u, -, ran, rfl⟩ := runInstr_cases h
  have fetched : (fetchSpend s).flagX = false := by unfold fetchSpend; split <;> exact clear
  have standing : (fetchSpend s).requests = s.requests := by unfold fetchSpend; split <;> rfl
  exact (exec_xStaysClear (by rwa [← standing] at maskable) i).rel_of_next u ran fetched

end Requests

end Sys2Proof.Machine

namespace Sys2Proof
open Sys2Proof.Machine

/-- Settles O11: over the cases of a step, of which only an XIRQ or a reset could set X. -/
theorem xMaskOneWay : Obligations.XMaskOneWay := by
  intro s t clear maskable h
  cases step_cases h with
  | runs _ _ ran => exact (runInstr_xStaysClear maskable).rel_of_next t ran clear
  | postpones _ _ ran => exact (runInstr_xStaysClear (s := s.spend 1) maskable).rel_of_next t ran clear
  | delivers _ src enabled entered =>
    obtain ⟨notXirq, interrupt⟩ := maskable_of_candidate maskable enabled
    rw [entered, deliver_flagX interrupt notXirq]
    exact clear
  | wakes _ src enabled _ woken =>
    obtain ⟨notXirq, interrupt⟩ := maskable_of_candidate maskable enabled
    rw [woken, wake_flagX interrupt notXirq, clear]
  | resumes _ _ resumed =>
    rw [resumed]
    exact clear
  | waits _ same => rw [same, clear]

end Sys2Proof
end

section
/-! PROOFS. One step by the run state (60_exceptions.md R505 to R509, R514, R515, 70_reset_and_hazards.md R540; log 7, 20 to 23):
which instruction runs, which request is served, what ends a wait, and the reset. -/

namespace Sys2Proof.Machine
open Sys2Proof.Laws

/-! ### RUNNING (R509) -/

section Running

variable {s : State}

theorem step_of_idle (running : s.run = .running) (idle : candidates s = []) : step s = runInstr s := by
  rw [step, cycle, running]
  dsimp only
  rw [stepRunning, idle]

theorem runInstr_of_decode {i : Instr} {rest : List Byte} {t : State} (decoded : decode (fetchBytes s) = .ok (i, rest))
    (ran : exec i { fetchSpend s with pc := s.pc + BitVec.ofNat 16 (6 - rest.length) } = .next t) :
    runInstr s = .next (settle (s.pc + BitVec.ofNat 16 (6 - rest.length)) t) := by
  rw [runInstr, decoded]
  simp only [runDecoded, checked_eq, ran]

/-- The request served is one of those let through, and none of them ranks higher (R508). -/
theorem highest_of_cands {l cs : List IntSource} {c : IntSource} (cands : l = c :: cs) :
    highest c cs ∈ l ∧ ∀ r ∈ l, rank r ≤ rank (highest c cs) := cands ▸ highest_spec cs c

theorem step_of_pending (running : s.run = .running) {c : IntSource} {cs : List IntSource}
    (cands : candidates s = c :: cs) :
    step s = .next (deliver (highest c cs) s.pc (s.spend 1)) ∨ step s = runInstr (s.spend 1) := by
  have choice : step s = if Config.freeBool s.draws then .next (deliver (highest c cs) s.pc (s.spend 1))
      else runInstr (s.spend 1) := by
    rw [step, cycle, running]
    dsimp only
    rw [stepRunning, cands]
    simp only [checked_eq]
  rw [choice]
  split
  · exact .inl rfl
  · exact .inr rfl

end Running

/-! ### WAITING and STOPPED (R514, R515) -/

section Halted

variable {s : State}

theorem step_of_waiting_idle (waiting : s.run = .waiting) (idle : candidates s = []) : step s = .next s := by
  rw [step, cycle, waiting]
  dsimp only
  rw [stepWaiting, idle]

theorem step_of_waiting_pending (waiting : s.run = .waiting) {c : IntSource} {cs : List IntSource}
    (cands : candidates s = c :: cs) : step s = .next (wake (highest c cs) s) := by
  rw [step, cycle, waiting]
  dsimp only
  rw [stepWaiting, cands]
  simp only [checked_eq]

theorem step_of_stopped_pending (stopped : s.run = .stopped) {c : IntSource} {cs : List IntSource}
    (cands : (candidates s).filter wakesStop = c :: cs) : step s = .next (wake (highest c cs) s) := by
  rw [step, cycle, stopped]
  dsimp only
  rw [stepStopped, cands]
  simp only [checked_eq]

theorem step_of_stopped_idle (stopped : s.run = .stopped) (idle : (candidates s).filter wakesStop = []) :
    step s = if s.flagX ∧ .xirq ∈ s.requests then .next (stopContinue s) else .next s := by
  rw [step, cycle, stopped]
  dsimp only
  rw [stepStopped, idle]

theorem wake_reset {src : IntSource} (starts : isReset src = true) (s : State) :
    wake src s = s.resetEntry (vectorOf src) := if_pos starts

theorem wake_interrupt {src : IntSource} (interrupt : isReset src = false) (s : State) : wake src s = { s with
    ccr := ccrOf s.flagS (s.flagX || decide (src = .xirq)) s.flagH true s.flagN s.flagZ s.flagV s.flagC
    pc := s.read16 (vectorOf src)
    run := .running
    stale := [] } := by
  rw [wake_eq s src interrupt, beq_eq_decide]

/-- An XIRQ that stands and is not let through is masked (R506). -/
theorem flagX_of_xirq_masked (stands : .xirq ∈ s.requests) (idle : (candidates s).filter wakesStop = []) :
    s.flagX = true := by
  by_contra clear
  have enabled : .xirq ∈ candidates s := List.mem_filter.2 ⟨stands, by simpa [enabled] using clear⟩
  have wakes : .xirq ∈ (candidates s).filter wakesStop := List.mem_filter.2 ⟨enabled, rfl⟩
  simp [idle] at wakes

theorem wakesStop_iff (src : IntSource) : wakesStop src = true ↔ isReset src = true ∨ src = .xirq ∨ src = .irq := by
  cases src <;> simp [wakesStop, isReset]

end Halted

/-! ### The bytes at PC (30_encoding.md R84) -/

section Encoded

variable {s : State} (settled : s.stale = [])
include settled

theorem fetchBytes_settled : fetchBytes s = (List.range 6).map fun k => s.read8 (s.pc + BitVec.ofNat 16 k) := by
  simp [fetchBytes, fetchByte_none s _ _ settled, List.range_succ]

theorem fetchBytes_of_memory {bs : List Byte} (short : bs.length ≤ 6)
    (memory : ∀ k : Nat, ∀ h : k < bs.length, s.read8 (s.pc + BitVec.ofNat 16 k) = bs[k]) :
    ∃ rest, fetchBytes s = bs ++ rest ∧ bs.length = 6 - rest.length := by
  have taken : (fetchBytes s).take bs.length = bs := by
    refine List.ext_getElem (by simp [fetchBytes_settled settled, short]) fun k _ h => ?_
    simp [fetchBytes_settled settled, memory k h]
  refine ⟨(fetchBytes s).drop bs.length, ?_, ?_⟩
  · conv_lhs => rw [← List.take_append_drop bs.length (fetchBytes s), taken]
  · simp only [List.length_drop, fetchBytes_settled settled, List.length_map, List.length_range]
    omega

end Encoded

/-- By the operand forms of the encoder (30_encoding.md R84). -/
theorem encode_length_le (i : Instr) (wf : i.wf = true) : (encode i).length ≤ 6 := by
  suffices Length.Statement i from (this wf).2
  cases i with
  | suba o | subb o | cmpa o | cmpb o | sbca o | sbcb o | anda o | andb o | bita o | bitb o | ldaa o | ldab o | eora o
  | eorb o | adca o | adcb o | oraa o | orab o | adda o | addb o => exact fun _ => encSrc8_length ..
  | subd o | addd o | cpd o | cpy o | cpx o | cps o | ldd o | ldy o | ldx o | lds o => exact fun _ => encSrc16_length ..
  | neg m | com m | inc m | dec m | lsr m | rol m | ror m | asr m | lsl m | asl m | clr m | tst m | jmp m =>
    exact fun h => encNoDir_length _ _ _ h
  | staa m | stab m | std m | sty m | stx m | sts m | jsr m =>
    exact Length.addressed _ _ _ m [] (List.append_nil _).symm (by decide)
  | bset m mm | bclr m mm => exact Length.addressed _ _ _ m [mm] rfl (by simp)
  | brset m mm rr | brclr m mm rr => exact Length.addressed _ _ _ m [mm, rr] rfl (by simp)
  | leax i | leay i | leas i => exact Length.indexed 1 i rfl rfl
  | emaxd i | emaxm i | emind i | eminm i | maxa i | maxm i | mina i | minm i | etbl i | tbl i =>
    exact Length.indexed 2 i rfl rfl
  | call t => exact Length.call t
  | movb src dst => exact Length.movb src dst
  | movw src dst => exact Length.movw src dst
  -- a fixed number of bytes
  | _ => exact Length.fixed _ rfl rfl

end Sys2Proof.Machine

namespace Sys2Proof
open Sys2Proof.Machine

/-! ### The statements -/

/-- Settles O5: nothing let through leaves the instruction at PC, nothing in flight leaves memory's bytes. -/
theorem stepRunsDecoded : Obligations.StepRunsDecoded := by
  intro s i rest running idle decoded
  refine ⟨fun t ran => ?runs, fun settled => ⟨if_pos settled, ?bytes⟩⟩
  case runs => rw [step_of_idle running idle, runInstr_of_decode decoded ran]
  case bytes => simp only [fetchBytes, fetchByte_none s _ _ settled]

/-- Settles O6: the bytes fetched begin with the encoding, which decodes to the instruction. -/
theorem stepRunsEncoded : Obligations.StepRunsEncoded := by
  intro s i wf running idle settled memory t ran
  obtain ⟨rest, bytes, length⟩ := fetchBytes_of_memory settled (encode_length_le i wf) memory
  have decoded : decode (fetchBytes s) = .ok (i.core, rest) := bytes ▸ decode_encode i rest wf
  have fetched : fetchSpend s = s := if_pos settled
  rw [length] at ran ⊢
  exact (stepRunsDecoded s i.core rest running idle decoded).1 t (by rwa [fetched])

/-- Settles O14: the highest of the requests let through, the masks in words. -/
theorem runningStep : Obligations.RunningStep := by
  intro s running pending
  obtain ⟨c, cs, cands⟩ := List.exists_cons_of_ne_nil pending
  obtain ⟨served, top⟩ := highest_of_cands cands
  obtain ⟨stands, unmasked⟩ := List.mem_filter.1 served
  obtain ⟨xirq, maskable⟩ := (enabled_iff s _).1 unmasked
  refine ⟨highest c cs, stands, xirq, maskable, fun r hr rx ri => ?top, step_of_pending running cands⟩
  case top => exact top r (List.mem_filter.2 ⟨hr, (enabled_iff s r).2 ⟨rx, ri⟩⟩)

/-- Settles O15: by the run state and by whether a request that ends it is let through. -/
theorem waitStopStep : Obligations.WaitStopStep := by
  refine ⟨fun s => step_of_waiting_idle, fun s waiting pending => ?waiting, wakesStop_iff,
    fun s stopped idle noXirq => ?stays, fun s stopped pending => ?stopped, fun s stopped idle stands => ?resumes⟩
  case waiting =>
    obtain ⟨c, cs, cands⟩ := List.exists_cons_of_ne_nil pending
    obtain ⟨served, top⟩ := highest_of_cands cands
    rw [step_of_waiting_pending waiting cands]
    exact ⟨_, served, top, fun starts => by rw [wake_reset starts], fun interrupt => by rw [wake_interrupt interrupt]⟩
  case stays =>
    rw [step_of_stopped_idle stopped idle]
    exact if_neg fun masked => noXirq masked.2
  case stopped =>
    obtain ⟨c, cs, cands⟩ := List.exists_cons_of_ne_nil pending
    obtain ⟨served, top⟩ := highest_of_cands cands
    obtain ⟨enabled, ends⟩ := List.mem_filter.1 served
    rw [step_of_stopped_pending stopped cands]
    exact ⟨_, enabled, ends, fun r hr wakes => top r (List.mem_filter.2 ⟨hr, wakes⟩),
      fun starts => by rw [wake_reset starts], fun interrupt => by rw [wake_interrupt interrupt]⟩
  case resumes =>
    rw [step_of_stopped_idle stopped idle, if_pos ⟨flagX_of_xirq_masked stands idle, stands⟩]
    exact ⟨_, rfl, pick_or .., rfl⟩

/-- Settles O10: the reset state lists nothing. -/
theorem resetMemoryCanonical : Obligations.ResetMemoryCanonical := rfl

/-- Settles O12: `resetEntry` is the reset state over the old memory. -/
theorem resetState : Obligations.ResetState := by
  obtain ⟨hs, hx, hi⟩ : State.reset.flagS = true ∧ State.reset.flagX = true ∧ State.reset.flagI = true := ⟨rfl, rfl, rfl⟩
  exact ⟨⟨hs, hx, hi, rfl, rfl⟩, fun _ _ => ⟨hs, hx, hi, rfl, rfl, rfl⟩⟩

end Sys2Proof
end

section
/-! PROOFS. Interrupt entries and the return from one (60_exceptions.md R503, R504, R510; 48_lost_rows.md R419, R468; log 1, 20,
29). -/

namespace Sys2Proof.Machine
open Sys2Proof.Safety

theorem entered_deliver {src : IntSource} (interrupt : isReset src = false) (rtn : Word) (s : State) :
    Entered s (deliver src rtn s) rtn (vectorOf src) (decide (src = .xirq)) := by
  rw [deliver, if_neg (by simp [interrupt]), beq_eq_decide]
  exact entered_takeException ..

/-- BGND stacks the frame and jumps (R419; log 29). -/
theorem stackFrame_goto_frame (s : State) (vector : Word) :
    let t := (s.stackFrame s.pc).goto ((s.stackFrame s.pc).read16 vector)
    t = { s with sp := s.sp - 9, pc := t.read16 vector, mem := t.mem, stale := [] } := by
  have same : ((s.stackFrame s.pc).goto ((s.stackFrame s.pc).read16 vector)).read16 vector =
      (s.stackFrame s.pc).read16 vector := State.read16_congr rfl vector
  dsimp only
  ext1 <;> simp [same]

/-- Loading back the register an entry stacked: X was set at most by the entry (10_state.md R34). -/
theorem ccrLoaded_own {s t : State} {setsX : Bool} (entry : t.flagX = (s.flagX || setsX)) : ccrLoaded t s.ccr = s.ccr := by
  have own : (t.flagX && s.flagX) = s.flagX := by rw [entry]; cases s.flagX <;> simp
  refine Eq.trans ?_ (ccrOf_flags s)
  rw [← own]
  rfl

theorem read16_of_bytes {t : State} {ea k v : Word} (high : t.read8 (ea + k) = hiByte v)
    (low : t.read8 (ea + (k + 1)) = loByte v) : t.read16 (ea + k) = v := by
  rw [State.read16_add, high, low, joinBytes_hiByte_loByte]

/-- RTI right after an entry gives back all but memory, and goes to the return address (R510). -/
theorem returnFromException_of_entered {s t : State} {rtn vector : Word} {setsX : Bool}
    (entered : Entered s t rtn vector setsX) : t.returnFromException = { s with pc := rtn, mem := t.mem, stale := [] } := by
  obtain ⟨stores, frame⟩ := entered
  have sp : t.sp = s.sp - 9 := congrArg State.sp frame
  have entry : t.flagX = (s.flagX || setsX) := by rw [frame]; simp [State.flagX]
  obtain ⟨ccr, b, a, xh, xl, yh, yl, ph, pl⟩ := reads_of_storesFrame stores sp
  have back : t.sp + 9 = s.sp := by rw [sp, BitVec.sub_add_cancel]
  rw [State.returnFromException_eq, ccr, ccrLoaded_own entry, b, a, read16_of_bytes xh xl, read16_of_bytes yh yl,
    read16_of_bytes ph pl, back]
  have ppage : t.ppage = s.ppage := by rw [frame]
  have run : t.run = s.run := by rw [frame]
  have requests : t.requests = s.requests := by rw [frame]
  have draws : t.draws = s.draws := by rw [frame]
  rw [ppage, run, requests, draws]

end Sys2Proof.Machine

namespace Sys2Proof
open Sys2Proof.Machine Sys2Proof.Safety

/-- Settles O28: an interrupt and SWI are `takeException`, BGND the frame and a jump. -/
theorem otherEntries : Obligations.OtherEntries :=
  ⟨fun s _ rtn interrupt => entered_deliver interrupt rtn s,
    fun s => ⟨⟨_, rfl, entered_takeException ..⟩, _, rfl, storesFrame_stackFrame s s.pc, stackFrame_goto_frame s _⟩⟩

/-- Settles O16: what the entry stacked is what RTI reads. -/
theorem entryThenReturn : Obligations.EntryThenReturn := by
  intro s src interrupt
  refine ⟨_, rfl, ?restored⟩
  case restored => rw [returnFromException_of_entered (entered_deliver interrupt s.pc s)]

end Sys2Proof
end

section
/-! PROOFS. Rows the source lost (48_lost_rows.md R415 to R431, R441 to R446, R450, R451; log 1, 13, 14, 30): the other branches,
loads and moves. -/

namespace Sys2Proof.Machine
open Sys2Proof.Safety

/-! ### Conditions as the rows state them -/

theorem condGe_eq_beq (s : State) : condGe s = (s.flagN == s.flagV) := by
  rw [condGe]
  cases s.flagN <;> simp

theorem condHi_eq_and (s : State) : condHi s = (!s.flagC && !s.flagZ) := Bool.not_or ..

theorem condGt_eq_and (s : State) : condGt s = (!s.flagZ && s.flagN == s.flagV) := by
  rw [← condGe_eq_beq]
  exact Bool.not_or ..

/-! ### Loads (R441 to R446) -/

theorem loadAcc_eq (r : Acc) (o : Src8) (s : State) :
    loadAcc r o s = .next { (src8Update s o).setAcc r (src8Val s o) with ccr := ccrLogic s (src8Val s o) } := by
  have kept : ((src8Update s o).setAcc r (src8Val s o)).ccr = s.ccr := by simp
  rw [loadAcc, logicFlags, ccrLogic_congr kept]

theorem execLdd_eq (o : Src16) (s : State) :
    execLdd o s = .next { (src16Update s o).setD (src16Val s o) with ccr := ccrLogic s (src16Val s o) } := by
  have kept : ((src16Update s o).setD (src16Val s o)).ccr = s.ccr := by simp
  rw [execLdd, logicFlags, ccrLogic_congr kept]

/-- A load of a register the operand leaves alone. -/
theorem loadAuto_of_ne {r : AutoReg} {o : Src16} (other : src16Auto o ≠ some r) (s : State) :
    loadAuto r o s =
      .next { setAuto (src16Update s o) r (src16Val s o) with ccr := ccrLogic s (src16Val s o) } := by
  have kept : (setAuto (src16Update s o) r (src16Val s o)).ccr = s.ccr := by simp
  simp only [loadAuto]
  rw [hazardWrite_ne other, hazardSpend_ne other, logicFlags, ccrLogic_congr kept]

theorem setAuto_idxUpdate_of_auto {r : AutoReg} {i : Idx} (same : idxAuto i = some r) (s : State) (v : Word) :
    setAuto (idxUpdate s i) r v = setAuto s r v := by
  cases i with
  | off5 | acc | off9 | off16 | indD | ind16 => cases same
  | auto q post n =>
    cases same
    cases r <;> rfl

/-- The register an operand auto-modifies is the only one it updates. -/
theorem setAuto_src16Update_of_auto {r : AutoReg} {o : Src16} (same : src16Auto o = some r) (s : State) (v : Word) :
    setAuto (src16Update s o) r v = setAuto s r v := by
  cases o with
  | imm w => cases same
  | mem m =>
    cases m with
    | dir | ext => cases same
    | idx i => exact setAuto_idxUpdate_of_auto same s v

/-- A load of the register the operand auto-modifies: one of the two writes comes last (R547; log 14). -/
theorem loadAuto_of_eq {r : AutoReg} {o : Src16} (same : src16Auto o = some r) (s : State) :
    ∃ t, loadAuto r o s = .next t ∧ (autoVal t r = src16Val s o ∨ autoVal t r = autoVal (src16Update s o) r) ∧
      t = { setAuto s r (autoVal t r) with ccr := ccrLogic s (src16Val s o), draws := t.draws } := by
  have written (v : Word) : (setAuto ((src16Update s o).spend 1) r v).flagsLogic (src16Val s o) =
      { setAuto s r v with ccr := ccrLogic s (src16Val s o), draws := s.draws + 1 } := by
    have kept : (setAuto ((src16Update s o).spend 1) r v).ccr = s.ccr := by simp
    rw [logicFlags, ccrLogic_congr kept, ← setAuto_src16Update_of_auto same s v, ← src16Update_draws s o]
    cases r <;> rfl
  have value (v : Word) (ccr : Byte) (draws : Nat) :
      autoVal { setAuto s r v with ccr := ccr, draws := draws } r = v := by cases r <;> rfl
  simp only [loadAuto]
  rw [same, hazardSpend, if_pos rfl]
  refine ⟨_, rfl, ?_⟩
  rw [written, value]
  exact ⟨hazardWrite_or s (src16Update s o) r _, rfl⟩

/-! ### Moves (R450, R451) -/

theorem write8_stores {s u : State} (mem : u.mem = s.mem) (ea : Word) (v : Byte) :
    ∃ t, (.next (u.write8 ea v) : Answer) = .next t ∧ StoresByte s t ea v ∧
      t = { u with mem := t.mem, stale := t.stale } :=
  ⟨_, rfl, storesByte_of mem rfl, rfl⟩

theorem write16_stores {s u : State} (mem : u.mem = s.mem) (ea v : Word) :
    ∃ t, (.next (u.write16 ea v) : Answer) = .next t ∧ StoresWord s t ea v ∧
      t = { u with mem := t.mem, stale := t.stale } :=
  ⟨_, rfl, storesWord_of mem rfl, rfl⟩

/-- Resolving the two operands of a move does not touch memory. -/
theorem moveUpdates_mem (m dst : Addr) (s : State) :
    (moveDstUpdate (trailingUpdate s m) (isIdx m) dst).mem = s.mem := by simp

end Sys2Proof.Machine

namespace Sys2Proof
open Sys2Proof.Machine Sys2Proof.Safety

/-! ### The statements -/

/-- Settles O18: each is `shortBranch` or `longBranch` of its condition. -/
theorem otherBranches : Obligations.OtherBranches := by
  refine ⟨fun rr s => ?short, fun w s => ?long⟩
  case short =>
    have taken (c : Bool) : shortBranch s c rr = branches s c rr.toInt := shortBranch_eq s c rr
    exact ⟨taken _, taken _, taken _, condGe_eq_beq s ▸ taken (condGe s), condGt_eq_and s ▸ taken (condGt s),
      condHi_eq_and s ▸ taken (condHi s)⟩
  case long =>
    have taken (c : Bool) : longBranch s c w = branches s c w.toInt := longBranch_eq s c w
    exact ⟨taken _, rfl, condHi_eq_and s ▸ taken (condHi s), taken _, taken _, taken _, taken _, taken _, taken _, taken _,
      taken _, taken _, taken _, taken _, condGe_eq_beq s ▸ taken (condGe s), condLt_eq_bne s ▸ taken (condLt s),
      condGt_eq_and s ▸ taken (condGt s), condLe_eq_bne s ▸ taken (condLe s)⟩

/-- Settles O52: A, B and D by their own lemmas, X, Y and SP by whether the operand moves the register. -/
theorem loads : Obligations.Loads :=
  ⟨fun o s => ⟨loadAcc_eq .a o s, loadAcc_eq .b o s⟩, fun o s => ⟨execLdd_eq o s,
    (loadAuto_of_ne (r := .x) · s), (loadAuto_of_ne (r := .y) · s), (loadAuto_of_ne (r := .sp) · s),
    (loadAuto_of_eq (r := .x) · s), (loadAuto_of_eq (r := .y) · s), (loadAuto_of_eq (r := .sp) · s)⟩⟩

/-- Settles O54: a store of one byte or word after both operands are resolved. -/
theorem moves : Obligations.Moves :=
  ⟨fun v dst s => write8_stores (moveDstUpdate_mem s false dst) _ v, fun m dst s => write8_stores (moveUpdates_mem m dst s) _ _,
    fun v dst s => write16_stores (moveDstUpdate_mem s false dst) _ v,
    fun m dst s => write16_stores (moveUpdates_mem m dst s) _ _⟩

end Sys2Proof
end

section
/-! PROOFS. Decimal adjust (48_lost_rows.md R429; log 1, 28): the binary sum of two packed bytes, digit by digit. -/

namespace Sys2Proof.Machine
open Sys2Proof.Safety

/-! ### Two digits that carry -/

/-- The carry out of the low digit of a decimal sum. -/
def lowCarry (low : Nat) : Bool := decide (10 ≤ low)

/-- The carry out of the high digit. -/
def highCarry (high low : Nat) : Bool := decide (10 ≤ high + (lowCarry low).toNat)

/-- What makes a binary sum of digits a decimal one: 6 for each digit that carries. -/
def digitCarries (high low : Nat) : Byte := BitVec.ofNat 8 (6 * (lowCarry low).toNat + 96 * (highCarry high low).toNat)

/-- Where A, H and C are those of a sum whose digits add up to `high` and `low`, DAA adds exactly that. -/
theorem daaAdjust_of_digits : ∀ high ≤ 18, ∀ low ≤ 19,
    daaAdjust (decide (256 ≤ 16 * high + low)) (decide (16 ≤ low)) ((16 * high + low) % 256 / 16)
      ((16 * high + low) % 256 % 16) = some (digitCarries high low, highCarry high low) := by
  decide +kernel

theorem adjusted_toNat {high low : Nat} (hhigh : high ≤ 18) (hlow : low ≤ 19) :
    (BitVec.ofNat 8 (16 * high + low) + digitCarries high low).toNat =
      16 * (high + (lowCarry low).toNat - 10 * (highCarry high low).toNat) + (low - 10 * (lowCarry low).toNat) := by
  rw [digitCarries, ← BitVec.ofNat_add, BitVec.toNat_ofNat, highCarry, lowCarry]
  by_cases carries : 10 ≤ low
  · by_cases carries' : 10 ≤ high + 1 <;> simp [carries, carries'] <;> omega
  · by_cases carries' : 10 ≤ high <;> simp [carries, carries'] <;> omega

/-- The two digits left, and the number they stand for. -/
theorem adjusted_decimal {high low : Nat} (hhigh : high ≤ 18) (hlow : low ≤ 19) :
    packed (BitVec.ofNat 8 (16 * high + low) + digitCarries high low) ∧
    decimal (BitVec.ofNat 8 (16 * high + low) + digitCarries high low) + 100 * (highCarry high low).toNat =
      10 * high + low := by
  rw [packed, decimal, adjusted_toNat hhigh hlow, highCarry, lowCarry]
  by_cases carries : 10 ≤ low
  · by_cases carries' : 10 ≤ high + 1 <;> simp [carries, carries'] <;> omega
  · by_cases carries' : 10 ≤ high <;> simp [carries, carries'] <;> omega

/-! ### The instruction -/

/-- A becomes `r`, N and Z of it, C as given, V free (log 9). -/
def daaResult (s : State) (r : Byte) (c : Bool) : State :=
  { s with a := r, ccr := ccrNZVC s (negative r) (zero r) (s.freeFlags 0x03#8).flagV c, draws := s.draws + 2 }

theorem daaResult_eq (s : State) (r : Byte) (c : Bool) :
    { (s.freeFlags 0x03#8).spend 2 with a := r }.setNZC (isNeg r) (isZero r) c = daaResult s r c := by
  rw [daaResult, ← isNeg_eq, ← isZero_eq, ← ccrNZVC_freeFlags s (mask := 0x03#8) (by decide)]
  rfl

theorem execDaa_of_some {s : State} {k : Byte} {c : Bool}
    (decimalSum : daaAdjust s.flagC s.flagH (s.a.toNat / 16) (s.a.toNat % 16) = some (k, c)) :
    execDaa s = .next (daaResult s (s.a + k) c) := by
  rw [← daaResult_eq, execDaa, decimalSum]

theorem execDaa_of_none {s : State}
    (noSum : daaAdjust s.flagC s.flagH (s.a.toNat / 16) (s.a.toNat % 16) = none) :
    execDaa s = .next (daaResult s (Config.freeByte (s.draws + 1)) (s.freeFlags 0x03#8).flagC) := by
  rw [← daaResult_eq, execDaa, noSum]
  rfl

theorem daaResult_flags (s : State) (r : Byte) (c : Bool) :
    (daaResult s r c).flagN = negative r ∧ (daaResult s r c).flagZ = zero r ∧
    (daaResult s r c).flagV = (s.freeFlags 0x03#8).flagV ∧ (daaResult s r c).flagC = c := by
  simp [State.flagN, State.flagZ, State.flagV, State.flagC, daaResult, ccrNZVC]

theorem daaResult_frame (s : State) (r : Byte) (c : Bool) : let t := daaResult s r c
    t = { s with a := t.a, ccr := ccrNZVC s (negative t.a) (zero t.a) t.flagV t.flagC, draws := t.draws } := by
  obtain ⟨-, -, hv, hc⟩ := daaResult_flags s r c
  dsimp only
  rw [hv, hc]
  rfl

/-- DAA after the addition of two packed bytes and a carry. -/
theorem execDaa_of_sum {p q : Byte} (hp : packed p) (hq : packed q) (c : Bool) {t : State}
    (sum : t.a = BitVec.ofNat 8 (p.toNat + q.toNat + c.toNat))
    (half : t.flagH = decide (16 ≤ p.toNat % 16 + q.toNat % 16 + c.toNat))
    (carry : t.flagC = decide (256 ≤ p.toNat + q.toNat + c.toNat)) :
    ∃ r d, execDaa t = .next (daaResult t r d) ∧ packed r ∧
      decimal r + 100 * d.toNat = decimal p + decimal q + c.toNat := by
  obtain ⟨hp1, hp0⟩ := hp
  obtain ⟨hq1, hq0⟩ := hq
  have hc : c.toNat ≤ 1 := c.toNat_le
  obtain ⟨high, hhigh⟩ : ∃ high, high = p.toNat / 16 + q.toNat / 16 := ⟨_, rfl⟩
  obtain ⟨low, hlow⟩ : ∃ low, low = p.toNat % 16 + q.toNat % 16 + c.toNat := ⟨_, rfl⟩
  have digits : p.toNat + q.toNat + c.toNat = 16 * high + low := by omega
  have high_le : high ≤ 18 := by omega
  have low_le : low ≤ 19 := by omega
  rw [digits] at sum carry
  rw [← hlow] at half
  obtain ⟨isPacked, value⟩ := adjusted_decimal high_le low_le
  refine ⟨t.a + digitCarries high low, highCarry high low, execDaa_of_some ?adjust, sum ▸ isPacked, ?value⟩
  case adjust =>
    rw [carry, half, sum, BitVec.toNat_ofNat]
    exact daaAdjust_of_digits high high_le low low_le
  case value =>
    rw [sum, value, decimal, decimal]
    omega

end Sys2Proof.Machine

namespace Sys2Proof
open Sys2Proof.Machine Sys2Proof.Safety

/-- Settles O41: ADCA leaves the sum `execDaa_of_sum` adjusts; the frame by whether A, H and C are those of such a sum. -/
theorem decimalAdjust : Obligations.DecimalAdjust := by
  refine ⟨fun m s ha hm => ?sum, fun s => ?frame⟩
  case sum =>
    obtain ⟨t, add, sum, ccr⟩ : ∃ t, exec (.adca (.imm m)) s = .next t ∧
        t.a = BitVec.ofNat 8 (s.a.toNat + m.toNat + s.flagC.toNat) ∧ t.ccr = ccrAdd8 s s.a m s.flagC.toNat :=
      ⟨_, addAcc_eq s.flagC .a (.imm m) s, rfl, rfl⟩
    have half : t.flagH = decide (16 ≤ s.a.toNat % 16 + m.toNat % 16 + s.flagC.toNat) := by
      simp [State.flagH, ccr, ccrAdd8]
    have carry : t.flagC = decide (256 ≤ s.a.toNat + m.toNat + s.flagC.toNat) := by simp [State.flagC, ccr, ccrAdd8]
    obtain ⟨r, d, adjusted, isPacked, value⟩ := execDaa_of_sum ha hm s.flagC sum half carry
    obtain ⟨hn, hz, -, hc⟩ := daaResult_flags t r d
    exact ⟨t, _, add, adjusted, isPacked, by rw [hc]; exact value, hn, hz⟩
  case frame =>
    cases h : daaAdjust s.flagC s.flagH (s.a.toNat / 16) (s.a.toNat % 16) with
    | some adjust => exact ⟨_, execDaa_of_some h, daaResult_frame ..⟩
    | none => exact ⟨_, execDaa_of_none h, daaResult_frame ..⟩

end Sys2Proof
end

section
/-! PROOFS. MEM, REV and REVW (47_fuzzy.md R320 to R322, R325; log 9, 25, 26): the flags they leave open, then each step. -/

namespace Sys2Proof.Machine
open Sys2Proof.Safety

/-! ### Open flags -/

/-- S, X and I are as they were: the other flags are open (00_scope.md R9; log 9). -/
structure ControlFlagsKept (s t : State) : Prop where
  stop : t.flagS = s.flagS
  xmask : t.flagX = s.flagX
  imask : t.flagI = s.flagI

namespace ControlFlagsKept

variable {s t u : State}

theorem ccr_eq (kept : ControlFlagsKept s t) :
    t.ccr = ccrOf s.flagS s.flagX t.flagH s.flagI t.flagN t.flagZ t.flagV t.flagC := by
  rw [← kept.stop, ← kept.xmask, ← kept.imask, ccrOf_flags]

theorem ccr_eq_of_flagC (kept : ControlFlagsKept s t) (carry : t.flagC = s.flagC) :
    t.ccr = ccrOf s.flagS s.flagX t.flagH s.flagI t.flagN t.flagZ t.flagV s.flagC := by
  rw [← carry]
  exact kept.ccr_eq

theorem freeFlags (s : State) {mask : Byte} (other : mask &&& 0xD0#8 = 0) : ControlFlagsKept s (s.freeFlags mask) := by
  have clear (k : Nat) (hk : (0xD0#8 : Byte).getLsbD k = true) : mask.getLsbD k = false := by
    have bit := congrArg (BitVec.getLsbD · k) other
    simpa [hk] using bit
  exact ⟨freeFlags_bit s mask 7 (clear 7 rfl), freeFlags_bit s mask 6 (clear 6 rfl), freeFlags_bit s mask 4 (clear 4 rfl)⟩

theorem setHNZVC (kept : ControlFlagsKept s t) (h n z v c : Bool) : ControlFlagsKept s (t.setHNZVC h n z v c) := by
  have bits : (t.setHNZVC h n z v c).flagS = t.flagS ∧ (t.setHNZVC h n z v c).flagX = t.flagX ∧
      (t.setHNZVC h n z v c).flagI = t.flagI := by simp [State.flagS, State.flagX, State.flagI]
  obtain ⟨hs, hx, hi⟩ := bits
  exact ⟨hs.trans kept.stop, hx.trans kept.xmask, hi.trans kept.imask⟩

theorem of_ccr (kept : ControlFlagsKept s t) (ccr : u.ccr = t.ccr) : ControlFlagsKept s u := by
  obtain ⟨hs, hx, -, hi, -⟩ := flags_congr ccr
  exact ⟨hs.trans kept.stop, hx.trans kept.xmask, hi.trans kept.imask⟩

end ControlFlagsKept
/-! ### MEM (R320) -/

theorem memTerm_eq (dist slope : Nat) : memTerm dist slope = if slope = 0 then 255 else min (dist * slope) 255 := by
  simp [memTerm, Config.memSpecial]

/-! ### What a rule reads and writes (R321, R322) -/

theorem minByte_toNat (p q : Byte) : (minByte p q).toNat = min p.toNat q.toNat := by
  rw [minByte]
  split
  · next less => exact (min_eq_right (BitVec.ult_iff_toNat_lt.1 less).le).symm
  · next notLess => exact (min_eq_left (Nat.not_lt.1 (mt BitVec.ult_iff_toNat_lt.2 notLess))).symm

/-- The weighted minimum is a byte: at most 255 * 256 / 256. -/
theorem weigh_toNat (p w : Byte) : (weigh p w).toNat = p.toNat * (w.toNat + 1) / 256 := by
  have fits : p.toNat * (w.toNat + 1) ≤ 255 * 256 := Nat.mul_le_mul (by omega) (by omega)
  rw [weigh, BitVec.toNat_ofNat, Nat.mod_eq_of_lt (by omega)]

section RuleOutput

variable {s t : State} (ea : Word)

/-- Storing the minimum over a smaller output, and leaving a larger one, both leave the maximum. -/
theorem ruleOutput_stores (mem : t.mem = s.mem) :
    StoresByte s (ruleOutput s t ea) ea (BitVec.ofNat 8 (max s.a.toNat (s.read8 ea).toNat)) := by
  rw [ruleOutput]
  split
  · next less =>
    rw [max_eq_left (BitVec.ult_iff_toNat_lt.1 less).le, BitVec.ofNat_toNat, BitVec.setWidth_eq]
    exact storesByte_of mem rfl
  · next notLess =>
    rw [max_eq_right (Nat.not_lt.1 (mt BitVec.ult_iff_toNat_lt.2 notLess)), BitVec.ofNat_toNat, BitVec.setWidth_eq]
    intro b
    rw [State.read8_congr mem]
    split
    · next same => rw [same]
    · rfl

theorem ruleOutput_frame : ruleOutput s t ea =
    { t with mem := (ruleOutput s t ea).mem, stale := (ruleOutput s t ea).stale } := by
  unfold ruleOutput
  split <;> rfl

theorem ruleOutput_registers : (ruleOutput s t ea).a = t.a ∧ (ruleOutput s t ea).x = t.x ∧ (ruleOutput s t ea).y = t.y := by
  rw [ruleOutput_frame]
  exact ⟨rfl, rfl, rfl⟩

theorem ruleOutput_flags :
    (ruleOutput s t ea).flagV = t.flagV ∧ (ruleOutput s t ea).flagC = t.flagC := by
  obtain ⟨-, -, -, -, -, -, hv, hc⟩ := flags_congr (ccr_ruleOutput s t ea)
  exact ⟨hv, hc⟩

theorem ruleOutput_kept (kept : ControlFlagsKept s t) : ControlFlagsKept s (ruleOutput s t ea) :=
  kept.of_ccr (ccr_ruleOutput ..)

end RuleOutput

/-! ### REV, one element (R321) -/

/-- What every step of REV does: one element is passed, H, N, Z and C are free. -/
def revPassed (s : State) : State := { (s.freeFlags 0x2D#8).spend 1 with x := s.x + 1 }

section Rev

variable {s : State}

theorem revPassed_kept (s : State) : ControlFlagsKept s (revPassed s) :=
  (ControlFlagsKept.freeFlags s (mask := 0x2D#8) rfl).of_ccr rfl

theorem revPassed_flagV (s : State) : (revPassed s).flagV = s.flagV := freeFlags_bit s 0x2D#8 1 rfl

theorem execRev_terminator (ends : s.read8 s.x = 0xFF#8) : execRev s = .next (revPassed s) := if_pos ends

theorem execRev_separator (separates : s.read8 s.x = 0xFE#8) : execRev s =
    .next { (revPassed s).setV (!s.flagV) with a := if s.flagV then 0xFF#8 else s.a, pc := s.pc - 2 } := by
  have notEnd : s.read8 s.x ≠ 0xFF#8 := by rw [separates]; decide
  exact (if_neg notEnd).trans (if_pos separates)

section Rule

variable (notEnd : s.read8 s.x ≠ 0xFF#8) (notSeparator : s.read8 s.x ≠ 0xFE#8)
include notEnd notSeparator

theorem execRev_output (output : s.flagV = true) : execRev s =
    .next { ruleOutput s (revPassed s) (s.y + (s.read8 s.x).zeroExtend 16) with pc := s.pc - 2 } :=
  (if_neg notEnd).trans ((if_neg notSeparator).trans (if_pos output))

theorem execRev_input (input : s.flagV = false) : execRev s =
    .next { revPassed s with a := minByte s.a (s.read8 (s.y + (s.read8 s.x).zeroExtend 16)), pc := s.pc - 2 } :=
  (if_neg notEnd).trans ((if_neg notSeparator).trans (if_neg (by simp [input])))

end Rule
end Rev

/-! ### REVW, one element (R322) -/

/-- What every step of REVW does: one element is passed, H, N and Z are free. -/
def revwPassed (s : State) : State := { (s.freeFlags 0x2C#8).spend 1 with x := s.x + 2 }

section Revw

variable {s : State}

theorem revwPassed_kept (s : State) : ControlFlagsKept s (revwPassed s) :=
  (ControlFlagsKept.freeFlags s (mask := 0x2C#8) rfl).of_ccr rfl

theorem revwPassed_flagV (s : State) : (revwPassed s).flagV = s.flagV := freeFlags_bit s 0x2C#8 1 rfl

theorem revwPassed_flagC (s : State) : (revwPassed s).flagC = s.flagC := freeFlags_bit s 0x2C#8 0 rfl

/-- A at a separator: the next rule starts, or the minimum of this one is weighted, or stays. -/
def revwMinimum (s : State) : Byte := if s.flagV then 0xFF#8 else if s.flagC then weigh s.a (s.read8 s.y) else s.a

/-- Y at a separator: past the weight where one was read. -/
def revwWeights (s : State) : Word := if s.flagV then s.y else if s.flagC then s.y + 1 else s.y

theorem revwSeparator_output (output : s.flagV = true) : revwMinimum s = 0xFF#8 ∧ revwWeights s = s.y :=
  ⟨if_pos output, if_pos output⟩

theorem revwSeparator_unweighted (input : s.flagV = false) (unweighted : s.flagC = false) :
    revwMinimum s = s.a ∧ revwWeights s = s.y := by
  simp [revwMinimum, revwWeights, input, unweighted]

theorem revwSeparator_weighted (input : s.flagV = false) (weighted : s.flagC = true) :
    (revwMinimum s).toNat = s.a.toNat * ((s.read8 s.y).toNat + 1) / 256 ∧ revwWeights s = s.y + 1 := by
  simp [revwMinimum, revwWeights, input, weighted, weigh_toNat]

theorem execRevw_terminator (ends : s.read16 s.x = 0xFFFF#16) : execRevw s = .next (revwPassed s) := if_pos ends

theorem execRevw_separator (separates : s.read16 s.x = 0xFFFE#16) : execRevw s =
    .next { (revwPassed s).setV (!s.flagV) with a := revwMinimum s, y := revwWeights s, pc := s.pc - 2 } := by
  have notEnd : s.read16 s.x ≠ 0xFFFF#16 := by rw [separates]; decide
  refine (if_neg notEnd).trans ((if_pos separates).trans ?_)
  rw [revwMinimum, revwWeights]
  cases s.flagV
  · cases s.flagC <;> rfl
  · rfl

section Rule

variable (notEnd : s.read16 s.x ≠ 0xFFFF#16) (notSeparator : s.read16 s.x ≠ 0xFFFE#16)
include notEnd notSeparator

theorem execRevw_output (output : s.flagV = true) : execRevw s =
    .next { ruleOutput s (revwPassed s) (s.read16 s.x) with pc := s.pc - 2 } :=
  (if_neg notEnd).trans ((if_neg notSeparator).trans (if_pos output))

theorem execRevw_input (input : s.flagV = false) : execRevw s =
    .next { revwPassed s with a := minByte s.a (s.read8 (s.read16 s.x)), pc := s.pc - 2 } :=
  (if_neg notEnd).trans ((if_neg notSeparator).trans (if_neg (by simp [input])))

end Rule
end Revw

end Sys2Proof.Machine

namespace Sys2Proof
open Sys2Proof.Machine Sys2Proof.Safety

/-! ### The statements -/

/-- Settles O57: the grade is the model's, with a slope of 0 as a vertical side (D11). -/
theorem membership : Obligations.Membership := by
  intro s
  have kept : ControlFlagsKept s ((s.freeFlags 0x2F#8).spend 1) :=
    (ControlFlagsKept.freeFlags s (mask := 0x2F#8) rfl).of_ccr rfl
  refine ⟨_, rfl, ?grade, ?frame⟩
  case grade =>
    simp only [← memTerm_eq]
    exact storesByte_of (u := (s.freeFlags 0x2F#8).spend 1) rfl rfl
  case frame =>
    ext1
    case ccr => exact kept.ccr_eq
    all_goals rfl

/-- Settles O58: by the element read and, where it is a rule byte, by V. -/
theorem ruleEvaluation : Obligations.RuleEvaluation := by
  refine ⟨fun s => ?rev, fun s => ?revw⟩
  case rev =>
    by_cases ends : s.read8 s.x = 0xFF#8
    · have notSeparator : s.read8 s.x ≠ 0xFE#8 := by rw [ends]; decide
      exact ⟨_, execRev_terminator ends, rfl, (revPassed_kept s).ccr_eq, rfl,
        fun _ => ⟨rfl, rfl, revPassed_flagV s, fun _ => rfl⟩, absurd ends, (absurd · notSeparator), absurd ends,
        absurd ends, absurd ends⟩
    by_cases separates : s.read8 s.x = 0xFE#8
    · have kept : ControlFlagsKept s ((revPassed s).setV (!s.flagV)) := (revPassed_kept s).setHNZVC ..
      have switched : ((revPassed s).setV (!s.flagV)).flagV = !s.flagV := by simp [State.flagV]
      exact ⟨_, execRev_separator separates, rfl, (kept.of_ccr rfl).ccr_eq, rfl, (absurd · ends), fun _ => rfl,
        fun _ => ⟨switched, rfl, fun _ => rfl⟩, fun _ => absurd separates, fun _ => absurd separates,
        fun _ => absurd separates⟩
    rcases Bool.eq_false_or_eq_true s.flagV with output | input
    · have notInput : ¬ s.flagV = false := by simp [output]
      obtain ⟨a, x, -⟩ := ruleOutput_registers (s := s) (t := revPassed s) (s.y + (s.read8 s.x).zeroExtend 16)
      obtain ⟨side, -⟩ := ruleOutput_flags (s := s) (t := revPassed s) (s.y + (s.read8 s.x).zeroExtend 16)
      have kept := ruleOutput_kept (s.y + (s.read8 s.x).zeroExtend 16) (revPassed_kept s)
      refine ⟨_, execRev_output ends separates output, x, (kept.of_ccr rfl).ccr_eq, ?frame, (absurd · ends), fun _ => rfl,
        (absurd · separates), fun _ _ => side.trans (revPassed_flagV s), fun _ _ => (absurd · notInput),
        fun _ _ _ => ⟨a, ruleOutput_stores _ rfl⟩⟩
      case frame => rw [ruleOutput_frame]; rfl
    · have notOutput : ¬ s.flagV = true := by simp [input]
      exact ⟨_, execRev_input ends separates input, rfl, ((revPassed_kept s).of_ccr rfl).ccr_eq, rfl, (absurd · ends),
        fun _ => rfl, (absurd · separates), fun _ _ => revPassed_flagV s,
        fun _ _ _ => ⟨minByte_toNat .., fun _ => rfl⟩, fun _ _ => (absurd · notOutput)⟩
  case revw =>
    by_cases ends : s.read16 s.x = 0xFFFF#16
    · have notSeparator : s.read16 s.x ≠ 0xFFFE#16 := by rw [ends]; decide
      have ccr := (revwPassed_kept s).ccr_eq_of_flagC (revwPassed_flagC s)
      exact ⟨_, execRevw_terminator ends, rfl, ccr, rfl, fun _ => ⟨rfl, rfl, revwPassed_flagV s, fun _ => rfl⟩,
        absurd ends, fun _ => rfl, (absurd · notSeparator), absurd ends, absurd ends, absurd ends⟩
    by_cases separates : s.read16 s.x = 0xFFFE#16
    · have switched : ((revwPassed s).setV (!s.flagV)).flagV = !s.flagV := by simp [State.flagV]
      have carry : ((revwPassed s).setV (!s.flagV)).flagC = s.flagC :=
        Eq.trans (by simp [State.flagC]) (revwPassed_flagC s)
      have kept : ControlFlagsKept s ((revwPassed s).setV (!s.flagV)) := (revwPassed_kept s).setHNZVC ..
      have ccr := kept.ccr_eq_of_flagC carry
      exact ⟨_, execRevw_separator separates, rfl, ccr, rfl, (absurd · ends), fun _ => rfl, absurd separates,
        fun _ => ⟨switched, fun _ => rfl, revwSeparator_output, revwSeparator_unweighted, revwSeparator_weighted⟩,
        fun _ => absurd separates, fun _ => absurd separates, fun _ => absurd separates⟩
    rcases Bool.eq_false_or_eq_true s.flagV with output | input
    · have notInput : ¬ s.flagV = false := by simp [output]
      obtain ⟨a, x, y⟩ := ruleOutput_registers (s := s) (t := revwPassed s) (s.read16 s.x)
      obtain ⟨side, carry⟩ := ruleOutput_flags (s := s) (t := revwPassed s) (s.read16 s.x)
      have ccr := (ruleOutput_kept (s.read16 s.x) (revwPassed_kept s)).ccr_eq_of_flagC (carry.trans (revwPassed_flagC s))
      refine ⟨_, execRevw_output ends separates output, x, ccr, ?frame, (absurd · ends), fun _ => rfl, fun _ => y,
        (absurd · separates), fun _ _ => side.trans (revwPassed_flagV s), fun _ _ => (absurd · notInput),
        fun _ _ _ => ⟨a, ruleOutput_stores _ rfl⟩⟩
      case frame => rw [ruleOutput_frame]; rfl
    · have notOutput : ¬ s.flagV = true := by simp [input]
      have ccr := (revwPassed_kept s).ccr_eq_of_flagC (revwPassed_flagC s)
      exact ⟨_, execRevw_input ends separates input, rfl, ccr, rfl, (absurd · ends), fun _ => rfl, fun _ => rfl,
        (absurd · separates), fun _ _ => revwPassed_flagV s, fun _ _ _ => ⟨minByte_toNat .., fun _ => rfl⟩,
        fun _ _ => (absurd · notOutput)⟩

end Sys2Proof
end

section
/-! PROOFS. WAV and wavr (47_fuzzy.md R323 to R325; log 9, 24): a WAV that ends, one that a request splits or abandons, and one
that is taken up again. -/

namespace Sys2Proof.Machine
open Sys2Proof.Safety

/-! ### A WAV that ends (R323) -/

section Finish

variable {s : State} {sop : BitVec 32} {sow : Word}

theorem wavFinish_of_nonzero (elements : s.b ≠ 0) : wavFinish sop sow s =
    { (((s.freeFlags 0x2F#8).spend 3).setYD (wavProducts s sop s.b.toNat)).setZ true with
      x := wavWeights s sow s.b.toNat } := if_neg (BitVec.toNat_ne_iff_ne.2 elements)

theorem wavFinish_of_zero (empty : s.b = 0) : wavFinish sop sow s =
    { ((s.freeFlags 0x2F#8).spend 3).setYD (Config.freeWord s.draws ++ Config.freeWord (s.draws + 1)) with
      x := Config.freeWord (s.draws + 2) } := if_pos (by rw [empty]; rfl)

theorem wavFinish_sums (elements : s.b ≠ 0) : (wavFinish sop sow s).flagZ = true ∧
    (wavFinish sop sow s).yd = wavProducts s sop s.b.toNat ∧ (wavFinish sop sow s).x = wavWeights s sow s.b.toNat := by
  rw [wavFinish_of_nonzero elements]
  exact ⟨by simp [State.flagZ], State.yd_setYD ((s.freeFlags 0x2F#8).spend 3) _, rfl⟩

theorem wavFinish_kept : ControlFlagsKept s (wavFinish sop sow s) := by
  have free : ControlFlagsKept s (s.freeFlags 0x2F#8) := ControlFlagsKept.freeFlags s rfl
  by_cases empty : s.b = 0
  · rw [wavFinish_of_zero empty]
    exact free.of_ccr rfl
  · rw [wavFinish_of_nonzero empty]
    exact (free.setHNZVC ..).of_ccr rfl

theorem wavFinish_averaged (sop : BitVec 32) (sow : Word) (s : State) : Averaged sop sow s (wavFinish sop sow s) := by
  refine ⟨fun elements => ?sums, ?frame⟩
  case sums =>
    obtain ⟨hz, hp, hw⟩ := wavFinish_sums (sop := sop) (sow := sow) elements
    exact ⟨hz, hp.trans (wavProducts_eq ..), hw.trans (wavWeights_eq ..)⟩
  case frame =>
    rw [← wavFinish_kept.ccr_eq]
    by_cases empty : s.b = 0
    · rw [wavFinish_of_zero empty]
      rfl
    · rw [wavFinish_of_nonzero empty]
      rfl

end Finish

/-! ### The sums are exact: at most 255 elements of at most 255 * 255 -/

theorem sum_range_le {f : Nat → Nat} {n bound : Nat} (le : ∀ k, f k ≤ bound) : ((List.range n).map f).sum ≤ n * bound := by
  have each : ∀ v ∈ (List.range n).map f, v ≤ bound := by
    intro v hv
    obtain ⟨k, -, rfl⟩ := List.mem_map.1 hv
    exact le k
  simpa using List.sum_le_card_nsmul _ bound each

theorem averaged_exact {s t : State} (averaged : Averaged 0 0 s t) (elements : s.b ≠ 0) :
    t.y.toNat * 65536 + t.d.toNat = ((List.range s.b.toNat).map fun k =>
      (s.read8 (s.x + BitVec.ofNat 16 k)).toNat * (s.read8 (s.y + BitVec.ofNat 16 k)).toNat).sum ∧
    t.x.toNat = ((List.range s.b.toNat).map fun k => (s.read8 (s.y + BitVec.ofNat 16 k)).toNat).sum := by
  obtain ⟨-, products, weights⟩ := averaged.1 elements
  have byte (v : Byte) : v.toNat ≤ 255 := by omega
  have productsLe := sum_range_le (n := s.b.toNat) (bound := 255 * 255)
    (f := fun k => (s.read8 (s.x + BitVec.ofNat 16 k)).toNat * (s.read8 (s.y + BitVec.ofNat 16 k)).toNat)
    fun k => Nat.mul_le_mul (byte _) (byte _)
  have weightsLe := sum_range_le (n := s.b.toNat) (bound := 255)
    (f := fun k => (s.read8 (s.y + BitVec.ofNat 16 k)).toNat) fun k => byte _
  have count := byte s.b
  rw [← State.yd_toNat, products, weights, zero_add, zero_add, BitVec.toNat_ofNat, BitVec.toNat_ofNat]
  exact ⟨Nat.mod_eq_of_lt (by omega), Nat.mod_eq_of_lt (by omega)⟩

/-! ### A request is let through (R325) -/

theorem wavRun_pending {s : State} {c : IntSource} {cs : List IntSource} (cands : candidates s = c :: cs)
    (sop : BitVec 32) (sow : Word) : ∃ t, wavRun sop sow s = .next t ∧ (Averaged sop sow s t ∨
      (isReset (highest c cs) = true ∧ t = { s.resetEntry (vectorOf (highest c cs)) with draws := t.draws }) ∨
      isReset (highest c cs) = false ∧ ∃ k, (s.b ≠ 0 → k < s.b.toNat) ∧ t = wavSplit (highest c cs) k sop sow s) := by
  rw [wavRun, cands]
  dsimp only
  split
  · exact ⟨_, rfl, .inl (wavFinish_averaged ..)⟩
  · split
    · next starts =>
      refine ⟨_, rfl, .inr (.inl ⟨starts, ?_⟩)⟩
      rw [deliver, if_pos starts]
      rfl
    · next interrupt =>
      have below (elements : s.b ≠ 0) : Config.freeIndex s.draws % s.b.toNat < s.b.toNat :=
        Nat.mod_lt _ (Nat.pos_of_ne_zero (BitVec.toNat_ne_iff_ne.2 elements))
      exact ⟨_, rfl, .inr (.inr ⟨by simpa using interrupt, _, below, rfl⟩)⟩

/-- wavr goes on with the sums pulled, above the six bytes (R324). -/
theorem execWavr_eq (s : State) : execWavr s =
    wavRun ((wavPulled s).extractLsb' 16 32) ((wavPulled s).extractLsb' 0 16) { s with sp := s.sp + 6 } := rfl

/-! ### A WAV taken up again: the bytes on the stack (R324, R325) -/

theorem read16_push16_top (s : State) (v : Word) : (s.push16 v).read16 (s.push16 v).sp = v := by
  have stores : StoresWord s (s.push16 v) (s.sp - 2) v := storesWord_of (u := { s with sp := s.sp - 2 }) rfl rfl
  rw [State.push16_sp]
  exact read16_of_storesWord stores

theorem read8_push16_above (s : State) (v : Word) {k : Word} (above : k.toNat < 65534) :
    (s.push16 v).read8 (s.sp + k) = s.read8 (s.sp + k) := by
  rw [State.read8_push16, if_neg (by bv_omega), if_neg (by bv_omega)]

theorem read16_push16_above (s : State) (v : Word) {k : Word} (above : k.toNat < 65533) :
    (s.push16 v).read16 ((s.push16 v).sp + (k + 2)) = s.read16 (s.sp + k) := by
  have address : (s.push16 v).sp + (k + 2) = s.sp + k := by rw [State.push16_sp]; bv_omega
  rw [address, State.read16_add, State.read16_add, read8_push16_above s v (by omega),
    read8_push16_above s v (k := k + 1) (by bv_omega)]

theorem wavPush_sp (sop : BitVec 32) (sow : Word) (s : State) : (wavPush sop sow s).sp = s.sp - 6 := by
  simp only [wavPush, State.push16_sp]
  bv_omega

/-- The three words on the stack are the layout's, the highest on top. -/
theorem wavPush_words (sop : BitVec 32) (sow : Word) (s : State) : let t := wavPush sop sow s
    t.read16 t.sp = (Config.wavLayout (sop ++ sow)).extractLsb' 32 16 ∧
    t.read16 (t.sp + 2) = (Config.wavLayout (sop ++ sow)).extractLsb' 16 16 ∧
    t.read16 (t.sp + 4) = (Config.wavLayout (sop ++ sow)).extractLsb' 0 16 := by
  intro t
  obtain ⟨w, layout⟩ : ∃ w, w = Config.wavLayout (sop ++ sow) := ⟨_, rfl⟩
  obtain ⟨low, hlow⟩ : ∃ low, low = s.push16 (w.extractLsb' 0 16) := ⟨_, rfl⟩
  obtain ⟨middle, hmiddle⟩ : ∃ middle, middle = low.push16 (w.extractLsb' 16 16) := ⟨_, rfl⟩
  have pushed : t = middle.push16 (w.extractLsb' 32 16) := by rw [hmiddle, hlow, layout]; rfl
  have second : middle.read16 (middle.sp + 2) = low.read16 (low.sp + 0) := by
    rw [hmiddle]
    exact read16_push16_above low _ (k := 0) (by decide)
  rw [pushed, ← layout]
  refine ⟨read16_push16_top .., ?middle, ?low⟩
  case middle =>
    refine (read16_push16_above middle _ (k := 0) (by decide)).trans ?_
    rw [add_zero, hmiddle, read16_push16_top]
  case low =>
    refine (read16_push16_above middle _ (k := 2) (by decide)).trans (second.trans ?_)
    rw [add_zero, hlow, read16_push16_top]

/-- wavr finds the sums in the bytes a split WAV stacked. -/
theorem wavPulled_wavPush (sop : BitVec 32) (sow : Word) (s : State) : wavPulled (wavPush sop sow s) = sop ++ sow := by
  obtain ⟨high, middle, low⟩ := wavPush_words sop sow s
  have whole (w : BitVec 48) : w.extractLsb' 32 16 ++ w.extractLsb' 16 16 ++ w.extractLsb' 0 16 = w := by
    rw [BitVec.extractLsb'_append_extractLsb'_eq_extractLsb' (by rfl)]
    exact BitVec.extractLsb'_append_extractLsb'
  rw [wavPulled, high, middle, low, whole, Equiv.symm_apply_apply]

theorem wavPulled_congr {s t : State} (sp : t.sp = s.sp)
    (bytes : ∀ k : Word, k.toNat < 6 → t.read8 (s.sp + k) = s.read8 (s.sp + k)) : wavPulled t = wavPulled s := by
  have word {k : Word} (below : k.toNat < 5) : t.read16 (s.sp + k) = s.read16 (s.sp + k) := by
    rw [State.read16_add, State.read16_add, bytes k (by omega), bytes (k + 1) (by bv_omega)]
  have top : t.read16 s.sp = s.read16 s.sp := by simpa using word (k := 0) (by decide)
  rw [wavPulled, wavPulled, sp, top, word (k := 2) (by decide), word (k := 4) (by decide)]

/-- A frame leaves the bytes above it. -/
theorem storesFrame_above {s t : State} {rtn : Word} (stores : StoresFrame s t rtn) {k : Word} (above : k.toNat < 65527) :
    t.read8 (s.sp + k) = s.read8 (s.sp + k) := by
  have other (j : Word) (pos : 0 < j.toNat) (low : j.toNat ≤ 9) : s.sp + k ≠ s.sp - j := by bv_omega
  rw [stores, if_neg (other 9 (by decide) (by decide)), if_neg (other 8 (by decide) (by decide)),
    if_neg (other 7 (by decide) (by decide)), if_neg (other 6 (by decide) (by decide)),
    if_neg (other 5 (by decide) (by decide)), if_neg (other 4 (by decide) (by decide)),
    if_neg (other 3 (by decide) (by decide)), if_neg (other 2 (by decide) (by decide)),
    if_neg (other 1 (by decide) (by decide))]

/-! ### A WAV taken up again: the sums -/

section Resumed

variable {s r : State} {k : Nat}

/-- Going on with the elements after the first `k`. -/
theorem wavProducts_resumed (acc : BitVec 32) {n : Nat}
    (xs : ∀ j < n, r.read8 (r.x + BitVec.ofNat 16 j) = s.read8 (s.x + BitVec.ofNat 16 (k + j)))
    (ys : ∀ j < n, r.read8 (r.y + BitVec.ofNat 16 j) = s.read8 (s.y + BitVec.ofNat 16 (k + j))) :
    wavProducts r (wavProducts s acc k) n = wavProducts s acc (k + n) := by
  induction n with
  | zero => rfl
  | succ n ih =>
    rw [wavProducts, ih (fun j hj => xs j (by omega)) (fun j hj => ys j (by omega)), xs n (by omega), ys n (by omega)]
    rfl

theorem wavWeights_resumed (acc : Word) {n : Nat}
    (ys : ∀ j < n, r.read8 (r.y + BitVec.ofNat 16 j) = s.read8 (s.y + BitVec.ofNat 16 (k + j))) :
    wavWeights r (wavWeights s acc k) n = wavWeights s acc (k + n) := by
  induction n with
  | zero => rfl
  | succ n ih =>
    rw [wavWeights, ih (fun j hj => ys j (by omega)), ys n (by omega)]
    rfl

theorem word_add_ofNat_add (p : Word) (k j : Nat) :
    p + BitVec.ofNat 16 k + BitVec.ofNat 16 j = p + BitVec.ofNat 16 (k + j) := by
  rw [BitVec.ofNat_add, BitVec.add_assoc]

/-- From the state a WAV was split in, with the sums so far, both sums come out as the whole WAV's. -/
theorem wavFinish_resumed (below : k < s.b.toNat) (x : r.x = s.x + BitVec.ofNat 16 k) (y : r.y = s.y + BitVec.ofNat 16 k)
    (b : r.b = s.b - BitVec.ofNat 8 k)
    (kept : ∀ j, k ≤ j → j < s.b.toNat → r.read8 (s.x + BitVec.ofNat 16 j) = s.read8 (s.x + BitVec.ofNat 16 j) ∧
      r.read8 (s.y + BitVec.ofNat 16 j) = s.read8 (s.y + BitVec.ofNat 16 j)) :
    (wavFinish (wavProducts s 0 k) (wavWeights s 0 k) r).yd = (wavFinish 0 0 s).yd ∧
    (wavFinish (wavProducts s 0 k) (wavWeights s 0 k) r).x = (wavFinish 0 0 s).x := by
  have all : k + r.b.toNat = s.b.toNat := by rw [b]; bv_omega
  have xs : ∀ j < r.b.toNat, r.read8 (r.x + BitVec.ofNat 16 j) = s.read8 (s.x + BitVec.ofNat 16 (k + j)) := by
    intro j hj
    rw [x, word_add_ofNat_add, (kept (k + j) (by omega) (by omega)).1]
  have ys : ∀ j < r.b.toNat, r.read8 (r.y + BitVec.ofNat 16 j) = s.read8 (s.y + BitVec.ofNat 16 (k + j)) := by
    intro j hj
    rw [y, word_add_ofNat_add, (kept (k + j) (by omega) (by omega)).2]
  have elements : s.b ≠ 0 := by
    rintro empty
    rw [empty] at below
    exact absurd below (Nat.not_lt_zero k)
  have left : r.b ≠ 0 := by
    rintro empty
    rw [empty] at all
    exact below.ne all
  obtain ⟨-, products, weights⟩ := wavFinish_sums (sop := 0) (sow := 0) elements
  obtain ⟨-, products', weights'⟩ := wavFinish_sums (sop := wavProducts s 0 k) (sow := wavWeights s 0 k) left
  rw [products, weights, products', weights', wavProducts_resumed 0 xs ys, wavWeights_resumed 0 ys, all]
  exact ⟨rfl, rfl⟩

end Resumed

/-! ### A WAV taken up again: the return -/

/-- The state an interrupt taken in `v` returns to, with PC at `pc`: as `v` was, but for memory, where the frame lies. -/
def returned (src : IntSource) (rtn pc : Word) (v : State) : State :=
  { v with pc := pc, mem := (deliver src rtn v).mem, stale := [] }

section Returned

variable {src : IntSource} {rtn pc : Word} {v : State}

theorem returnFromException_deliver (interrupt : isReset src = false) (rtn : Word) (v : State) :
    (deliver src rtn v).returnFromException = returned src rtn rtn v :=
  returnFromException_of_entered (entered_deliver interrupt rtn v)

theorem returned_setPc (q : Word) : { returned src rtn pc v with pc := q } = returned src rtn q v := rfl

theorem wavPulled_returned (interrupt : isReset src = false) : wavPulled (returned src rtn pc v) = wavPulled v := by
  obtain ⟨stores, -⟩ := entered_deliver interrupt rtn v
  exact wavPulled_congr rfl fun k below => (State.read8_congr rfl _).trans (storesFrame_above stores (by omega))

theorem execWavr_returned (interrupt : isReset src = false) (idle : candidates (returned src rtn pc v) = [])
    {sop : BitVec 32} {sow : Word} (stacked : wavPulled v = sop ++ sow) :
    execWavr (returned src rtn pc v) = .next (wavFinish sop sow { returned src rtn pc v with sp := v.sp + 6 }) := by
  rw [execWavr_eq, wavPulled_returned interrupt, stacked, BitVec.extractLsb'_append_eq_left,
    BitVec.extractLsb'_append_eq_right]
  exact wavRun_idle (s := { returned src rtn pc v with sp := v.sp + 6 }) idle sop sow

end Returned

/-- The state a split WAV is interrupted in (R325; log 24). -/
def wavStacked (k : Nat) (sop : BitVec 32) (sow : Word) (s : State) : State :=
  { wavPush (wavProducts s sop k) (wavWeights s sow k) ((s.freeFlags 0x2F#8).spend 1) with
    x := s.x + BitVec.ofNat 16 k, y := s.y + BitVec.ofNat 16 k, b := s.b - BitVec.ofNat 8 k }

section Stacked

variable (k : Nat) (sop : BitVec 32) (sow : Word) (s : State)

theorem wavSplit_eq (src : IntSource) :
    wavSplit src k sop sow s = deliver src (s.pc - 1) (wavStacked k sop sow s) := rfl

theorem wavStacked_sp : (wavStacked k sop sow s).sp = s.sp - 6 := by
  simp only [wavStacked, wavPush_sp, State.spend_sp, State.freeFlags_sp]

theorem wavPulled_registers (t : State) (b : Byte) (x y : Word) :
    wavPulled { t with b := b, x := x, y := y } = wavPulled t := rfl

theorem wavPulled_wavStacked : wavPulled (wavStacked k sop sow s) = wavProducts s sop k ++ wavWeights s sow k := by
  rw [wavStacked, wavPulled_registers, wavPulled_wavPush]

end Stacked

end Sys2Proof.Machine

namespace Sys2Proof
open Sys2Proof.Machine Sys2Proof.Safety

/-! ### The statements -/

/-- Settles O59: nothing let through by `wavFinish_averaged`, a request by `wavRun_pending`. -/
theorem weightedAverage : Obligations.WeightedAverage := by
  refine ⟨fun s idle elements => ?wav, fun s idle elements => ?wavr, fun s idle empty => ?empty, fun s pending => ?pending⟩
  case wav =>
    have averaged := wavFinish_averaged 0 0 s
    obtain ⟨products, weights⟩ := averaged_exact averaged elements
    obtain ⟨hz, -⟩ := averaged.1 elements
    exact ⟨_, wavRun_idle idle 0 0, products, weights, hz ▸ averaged.2⟩
  case wavr =>
    have averaged := wavFinish_averaged ((wavPulled s).extractLsb' 16 32) ((wavPulled s).extractLsb' 0 16)
      { s with sp := s.sp + 6 }
    obtain ⟨hz, products, weights⟩ := averaged.1 elements
    exact ⟨_, wavRun_idle (s := { s with sp := s.sp + 6 }) idle _ _, weights, products, hz ▸ averaged.2⟩
  case empty =>
    exact ⟨⟨_, wavRun_idle idle 0 0, (wavFinish_averaged 0 0 s).2⟩,
      _, wavRun_idle (s := { s with sp := s.sp + 6 }) idle _ _, (wavFinish_averaged _ _ { s with sp := s.sp + 6 }).2⟩
  case pending =>
    obtain ⟨c, cs, cands⟩ := List.exists_cons_of_ne_nil pending
    obtain ⟨served, top⟩ := highest_of_cands cands
    exact ⟨highest c cs, served, top, wavRun_pending cands 0 0,
      wavRun_pending (s := { s with sp := s.sp + 6 }) cands ((wavPulled s).extractLsb' 16 32)
        ((wavPulled s).extractLsb' 0 16)⟩

/-- Settles O60: RTI gives back the state the WAV was split in, and wavr adds the sums left to the sums stacked. -/
theorem splitWavResumes : Obligations.SplitWavResumes := by
  intro s src k interrupt below kept
  obtain ⟨v, stacked⟩ : ∃ v, v = wavStacked k 0 0 s := ⟨_, rfl⟩
  have split : wavSplit src k 0 0 s = deliver src (s.pc - 1) v := by rw [stacked, wavSplit_eq]
  have sums : wavPulled v = wavProducts s 0 k ++ wavWeights s 0 k := by rw [stacked, wavPulled_wavStacked]
  have x : v.x = s.x + BitVec.ofNat 16 k := by rw [stacked, wavStacked]
  have y : v.y = s.y + BitVec.ofNat 16 k := by rw [stacked, wavStacked]
  have b : v.b = s.b - BitVec.ofNat 8 k := by rw [stacked, wavStacked]
  have back : v.sp + 6 = s.sp := by rw [stacked, wavStacked_sp, BitVec.sub_add_cancel]
  rw [split] at kept ⊢
  refine ⟨returned src (s.pc - 1) (s.pc - 1) v,
    congrArg Host.Outcome.next (returnFromException_deliver interrupt (s.pc - 1) v), rfl, fun idle => ?resumes⟩
  case resumes =>
    rw [returned_setPc] at idle ⊢
    have ends := execWavr_returned interrupt idle sums
    rw [back] at ends
    have sp := congrArg State.sp (wavFinish_averaged (wavProducts s 0 k) (wavWeights s 0 k)
      { returned src (s.pc - 1) s.pc v with sp := s.sp }).2
    exact ⟨_, ends, sp, wavFinish_resumed below x y b kept⟩

end Sys2Proof
end
